-- ==== Sys2Proof/Word.lean ====
section
/-! DEFINITION. The word types of the block (00_scope.md R5). -/

namespace Sys2Proof

/-- One byte: the width of every register and of every bus transaction (R11, R43). -/
abbrev Byte := BitVec 8

/-- A transfer count (R15, R16). -/
abbrev Count := BitVec 16

/-- A value of the tick counter (R28). -/
abbrev Tick := BitVec 24

/-- A host bus address (R4 `BASE`, R41). -/
abbrev Addr := BitVec 32

end Sys2Proof
end

