-- ==== Sys2Proof/Syntax.lean ====
section
/-! DEFINITION. The operations of the block: one constructor of `Instr` per row of
spec/opcode_table.json (30_encoding.md R64), the bus transactions that select them (R60, R61) and the
host accesses that reach the block by address (20_memory.md R41). -/

namespace Sys2Proof

/-- The sixteen registers of the window, in the order of 10_state.md R11. -/
inductive RegName
  | status
  | lenHi
  | gpio
  | rxHead
  | rxTail
  | txHead
  | txTail
  | rxDiscard
  | txFeed
  | spiFreq
  | ss
  | intFired
  | intArmed
  | fifoData
  | ident
  | reserved
deriving DecidableEq, Repr

/-- Where a board answers (R4, R40): BASE, REG_INDEX as the registers in index order, and the three tick
addresses. -/
structure Placement where
  base : Addr
  order : List RegName
  tickHi : Addr
  tickMid : Addr
  tickLo : Addr
deriving DecidableEq, Repr

/-- The operations of R64. A write carries its data byte `d`; a read's byte is an outcome. -/
inductive Instr
  | rdStatus
  | rdLenHi
  | rdGpio
  | rdRxHead
  | rdRxTail
  | rdTxHead
  | rdTxTail
  | rdRxDiscard
  | rdTxFeed
  | rdSpiFreq
  | rdSs
  | rdIntFired
  | rdIntArmed
  | rdFifoData
  | rdIdent
  | rdReserved
  | wrStatus (d : Byte)
  | wrLenHi (d : Byte)
  | wrGpio (d : Byte)
  | wrRxHead (d : Byte)
  | wrRxTail (d : Byte)
  | wrTxHead (d : Byte)
  | wrTxTail (d : Byte)
  | wrRxDiscard (d : Byte)
  | wrTxFeed (d : Byte)
  | wrSpiFreq (d : Byte)
  | wrSs (d : Byte)
  | wrIntFired (d : Byte)
  | wrIntArmed (d : Byte)
  | wrFifoData (d : Byte)
  | wrIdent (d : Byte)
  | wrReserved (d : Byte)
  | rdTickHi
  | rdTickMid
  | rdTickLo
  | wrTickHi (d : Byte)
  | wrTickMid (d : Byte)
  | wrTickLo (d : Byte)
deriving DecidableEq, Repr

/-- A selector: what a transaction's address and direction come to (R60, R61). -/
inductive Selector
  /-- REGFILE: bit 6 `W`, bits 5:2 index, bits 1:0 lane. -/
  | regfile (v : BitVec 7)
  /-- TICKPORT: bit 2 `W`, bits 1:0 `t`. -/
  | tickport (v : BitVec 3)
deriving DecidableEq, Repr

/-- One byte-wide bus transaction (R62). For a read the block ignores `data`. -/
structure BusCycle where
  sel : Selector
  data : Byte
deriving DecidableEq, Repr

/-- A host access by address (R81); `width` in bytes. -/
structure Access where
  write : Bool
  addr : Addr
  width : Nat
  data : Byte
deriving DecidableEq, Repr

/-- The host's two execution contexts (60_exceptions.md R251). -/
inductive Context
  | application
  | interrupt
deriving DecidableEq, Repr

/-- The host procedures the application context can start (R68, and the rule each names). -/
inductive Call
  /-- Bind BASE and IRQ_SELECTOR from BoardConfig and create the InterruptContext (R90, R29, R273). -/
  | init (baseAddress : Option Addr) (interruptSelector : Option Nat) (signalId : Nat)
  /-- Destroy the BoardHandle (R276). -/
  | destroy
  /-- R104. -/
  | probe
  /-- Register the handler with the dispatcher (R187). -/
  | register
  /-- Deregister it, safe if it never was registered (R187). -/
  | deregister
  /-- R178. -/
  | arm
  /-- R179. -/
  | disarm
  /-- R181. -/
  | resetInterrupt
  /-- `Wait(signalId)` (R6, R182). -/
  | waitSignal
  /-- One turn of the consumer loop: `Wait(signalId); resetInterrupt()` (R182). -/
  | consume
  /-- R86. -/
  | pinState
  /-- R150. -/
  | spiRead (size : Count)
  /-- R151. -/
  | spiRead1
  /-- R152; `size` is the length of `buf`. -/
  | spiWrite (buf : List Byte)
  /-- R153. -/
  | spiWrite1 (b : Byte)
  /-- R205. -/
  | readTicks
  /-- R206. -/
  | delay (ticks : Nat)
  /-- R216. -/
  | calibrate
  /-- R220. -/
  | shortWait
  /-- R88. -/
  | select (v : Byte)
  /-- R88. -/
  | deselect
  /-- R228. -/
  | openTimer
  /-- R228, of the handle `h`. -/
  | closeTimer (h : Nat)
  /-- R228: on the handle `h`, a deadline `us` microseconds ahead, or any signal of `sigs`. -/
  | waitDeadline (h : Nat) (us : Nat) (sigs : List Nat)
deriving DecidableEq, Repr

end Sys2Proof
end

