-- ==== Sys2Proof/Decode.lean ====
section
/-! DEFINITION. Decoding a bus transaction (30_encoding.md R60, R61, R65; 20_memory.md R41 to R43) and,
after it, encoding. Both are total; a transaction that selects no operation is rejected by name. -/

namespace Sys2Proof

/-- Why a transaction selects no operation of R64. -/
inductive DecodeError
  /-- REGFILE with `lane != 0` (R42, R65). -/
  | unmappedOffset
  /-- TICKPORT with `t = 3` (R61, R204). -/
  | unusedTick
  /-- An access of a width other than one byte to the window or the tick port (R43). -/
  | badWidth
  /-- The address is neither in the window nor in the tick port (R81). -/
  | notThisBlock
deriving DecidableEq, Repr

/-! ## REG_INDEX (R4, R11, D1) -/

/-- R11's enumeration: the default order of the registers. -/
def defaultOrder : List RegName :=
  [.status, .lenHi, .gpio, .rxHead, .rxTail, .txHead, .txTail, .rxDiscard, .txFeed, .spiFreq, .ss,
   .intFired, .intArmed, .fifoData, .ident, .reserved]

/-- REG_INDEX is a bijection of the sixteen names and 0..15 (D1): the order lists each name once. -/
def orderWf (order : List RegName) : Bool := order.isPerm defaultOrder

/-- REG_INDEX of a register: its place in the board's order. -/
def regIndex (order : List RegName) (r : RegName) : BitVec 4 := BitVec.ofNat 4 (order.idxOf r)

/-- The register with a given index (R81). -/
def regOfIndex (order : List RegName) (i : BitVec 4) : RegName := order.getD i.toNat .reserved

/-- The read of a register (R64). -/
def readOf : RegName → Instr
  | .status => .rdStatus
  | .lenHi => .rdLenHi
  | .gpio => .rdGpio
  | .rxHead => .rdRxHead
  | .rxTail => .rdRxTail
  | .txHead => .rdTxHead
  | .txTail => .rdTxTail
  | .rxDiscard => .rdRxDiscard
  | .txFeed => .rdTxFeed
  | .spiFreq => .rdSpiFreq
  | .ss => .rdSs
  | .intFired => .rdIntFired
  | .intArmed => .rdIntArmed
  | .fifoData => .rdFifoData
  | .ident => .rdIdent
  | .reserved => .rdReserved

/-- The write of a register (R64). -/
def writeOf (d : Byte) : RegName → Instr
  | .status => .wrStatus d
  | .lenHi => .wrLenHi d
  | .gpio => .wrGpio d
  | .rxHead => .wrRxHead d
  | .rxTail => .wrRxTail d
  | .txHead => .wrTxHead d
  | .txTail => .wrTxTail d
  | .rxDiscard => .wrRxDiscard d
  | .txFeed => .wrTxFeed d
  | .spiFreq => .wrSpiFreq d
  | .ss => .wrSs d
  | .intFired => .wrIntFired d
  | .intArmed => .wrIntArmed d
  | .fifoData => .wrFifoData d
  | .ident => .wrIdent d
  | .reserved => .wrReserved d

/-- Decode a REGFILE selector (R60): `lane` must be 00. -/
def decodeRegfile (order : List RegName) (v : BitVec 7) (d : Byte) : Except DecodeError Instr :=
  if v.extractLsb' 0 2 = 0#2 then
    let r := regOfIndex order (v.extractLsb' 2 4)
    .ok (if v.getLsbD 6 then writeOf d r else readOf r)
  else .error .unmappedOffset

/-- Decode a TICKPORT selector (R61): `t = 3` is unused. -/
def decodeTickport (v : BitVec 3) (d : Byte) : Except DecodeError Instr :=
  match v.toNat with
  | 0 => .ok .rdTickHi
  | 1 => .ok .rdTickMid
  | 2 => .ok .rdTickLo
  | 4 => .ok (.wrTickHi d)
  | 5 => .ok (.wrTickMid d)
  | 6 => .ok (.wrTickLo d)
  | _ => .error .unusedTick

/-- The operation a transaction performs on a board whose registers stand in `order` (R64, R65). -/
def decode (order : List RegName) (c : BusCycle) : Except DecodeError Instr :=
  match c.sel with
  | .regfile v => decodeRegfile order v c.data
  | .tickport v => decodeTickport v c.data

/-! ## Address decode -/

/-- `off = a -_32 BASE` (R41). -/
def Placement.offset (p : Placement) (a : Addr) : Addr := a - p.base

/-- R4's ranges: REG_INDEX a bijection, the tick addresses three addresses outside the window. -/
def Placement.wf (p : Placement) : Bool :=
  let outside (a : Addr) : Bool := decide (64 ≤ (p.offset a).toNat)
  orderWf p.order && outside p.tickHi && outside p.tickMid && outside p.tickLo
    && p.tickHi != p.tickMid && p.tickHi != p.tickLo && p.tickMid != p.tickLo

/-- The selector of a byte access (R41, R60, R61, R81), none where the address is not this block's. -/
def selectorAt (p : Placement) (write : Bool) (a : Addr) : Option Selector :=
  if (p.offset a).toNat < 64 then
    some (.regfile (BitVec.ofBool write ++ (p.offset a).extractLsb' 0 6))
  else if a = p.tickHi then some (.tickport (BitVec.ofBool write ++ 0#2))
  else if a = p.tickMid then some (.tickport (BitVec.ofBool write ++ 1#2))
  else if a = p.tickLo then some (.tickport (BitVec.ofBool write ++ 2#2))
  else none

/-- Whether one of the `width` bytes from `a` on lies in the window or the tick port (R43). An access of
width 0 is taken as one to `a` itself, so that it is refused there like any other width but one byte
(DEDUCED from R43's "any other width", log 13). -/
def touchesBlock (p : Placement) (a : Addr) (width : Nat) : Bool :=
  (List.range (min (max 1 width) (2 ^ 32))).any fun k => (selectorAt p false (a + BitVec.ofNat 32 k)).isSome

/-- The transaction a host access is (R81), with R43's width and R81's range checked first. -/
def decodeAccess (p : Placement) (a : Access) : Except DecodeError BusCycle :=
  if a.width = 1 then
    match selectorAt p a.write a.addr with
    | some sel => .ok ⟨sel, a.data⟩
    | none => .error .notThisBlock
  else if touchesBlock p a.addr a.width then .error .badWidth
  else .error .notThisBlock

/-! ## Encoding -/

/-- The REGFILE selector of a register and a direction: `W`, index, lane 00 (R60). -/
def regSelector (order : List RegName) (write : Bool) (r : RegName) : Selector :=
  .regfile (BitVec.ofBool write ++ regIndex order r ++ 0#2)

/-- The TICKPORT selector of a tick byte and a direction (R61). -/
def tickSelector (write : Bool) (t : BitVec 2) : Selector :=
  .tickport (BitVec.ofBool write ++ t)

/-- The selector of an operation on a board whose registers stand in `order` (R64's column "match", which
is for the default order). -/
def Instr.selector (order : List RegName) : Instr → Selector
  | .rdStatus => regSelector order false .status
  | .rdLenHi => regSelector order false .lenHi
  | .rdGpio => regSelector order false .gpio
  | .rdRxHead => regSelector order false .rxHead
  | .rdRxTail => regSelector order false .rxTail
  | .rdTxHead => regSelector order false .txHead
  | .rdTxTail => regSelector order false .txTail
  | .rdRxDiscard => regSelector order false .rxDiscard
  | .rdTxFeed => regSelector order false .txFeed
  | .rdSpiFreq => regSelector order false .spiFreq
  | .rdSs => regSelector order false .ss
  | .rdIntFired => regSelector order false .intFired
  | .rdIntArmed => regSelector order false .intArmed
  | .rdFifoData => regSelector order false .fifoData
  | .rdIdent => regSelector order false .ident
  | .rdReserved => regSelector order false .reserved
  | .wrStatus _ => regSelector order true .status
  | .wrLenHi _ => regSelector order true .lenHi
  | .wrGpio _ => regSelector order true .gpio
  | .wrRxHead _ => regSelector order true .rxHead
  | .wrRxTail _ => regSelector order true .rxTail
  | .wrTxHead _ => regSelector order true .txHead
  | .wrTxTail _ => regSelector order true .txTail
  | .wrRxDiscard _ => regSelector order true .rxDiscard
  | .wrTxFeed _ => regSelector order true .txFeed
  | .wrSpiFreq _ => regSelector order true .spiFreq
  | .wrSs _ => regSelector order true .ss
  | .wrIntFired _ => regSelector order true .intFired
  | .wrIntArmed _ => regSelector order true .intArmed
  | .wrFifoData _ => regSelector order true .fifoData
  | .wrIdent _ => regSelector order true .ident
  | .wrReserved _ => regSelector order true .reserved
  | .rdTickHi => tickSelector false 0#2
  | .rdTickMid => tickSelector false 1#2
  | .rdTickLo => tickSelector false 2#2
  | .wrTickHi _ => tickSelector true 0#2
  | .wrTickMid _ => tickSelector true 1#2
  | .wrTickLo _ => tickSelector true 2#2

/-- The data byte an operation drives on the bus; a read drives none and 0 stands for it (R63). -/
def Instr.data : Instr → Byte
  | .wrStatus d | .wrLenHi d | .wrGpio d | .wrRxHead d | .wrRxTail d | .wrTxHead d | .wrTxTail d
  | .wrRxDiscard d | .wrTxFeed d | .wrSpiFreq d | .wrSs d | .wrIntFired d | .wrIntArmed d
  | .wrFifoData d | .wrIdent d | .wrReserved d | .wrTickHi d | .wrTickMid d | .wrTickLo d => d
  | .rdStatus | .rdLenHi | .rdGpio | .rdRxHead | .rdRxTail | .rdTxHead | .rdTxTail | .rdRxDiscard
  | .rdTxFeed | .rdSpiFreq | .rdSs | .rdIntFired | .rdIntArmed | .rdFifoData | .rdIdent
  | .rdReserved | .rdTickHi | .rdTickMid | .rdTickLo => 0#8

/-- The transaction of an operation. -/
def encode (order : List RegName) (i : Instr) : BusCycle := ⟨i.selector order, i.data⟩

/-- Whether a selector's `W` bit is set: the transaction is a write (R60, R61). -/
def Selector.isWrite : Selector → Bool
  | .regfile v => v.getLsbD 6
  | .tickport v => v.getLsbD 2

/-- The address of a tick byte (R61); no operation has `t = 3`, which stands here with `t = 2`. -/
def Placement.tickAddress (p : Placement) (t : BitVec 2) : Addr :=
  match t.toNat with
  | 0 => p.tickHi
  | 1 => p.tickMid
  | _ => p.tickLo

/-- The address at which a selector is reached (R41, R61). -/
def Selector.address (p : Placement) : Selector → Addr
  | .regfile v => p.base + (v.extractLsb' 0 6).zeroExtend 32
  | .tickport v => p.tickAddress (v.extractLsb' 0 2)

/-- The byte access that performs an operation on a board placed at `p`. -/
def encodeAccess (p : Placement) (i : Instr) : Access :=
  let sel := i.selector p.order
  ⟨sel.isWrite, sel.address p, 1, i.data⟩

/-! ## Words as spec/opcode_table.json numbers them -/

/-- The transaction of a table word: selector in the low bits, data byte in bits 15:8. Nothing in a
word tells the table's two formats apart. A word the table gives three bits is TICKPORT; of the byte-wide
words, 1, 2, 5 and 6 match no REGFILE row and are TICKPORT, every other word is REGFILE
(DESIGN CHOICE, log 11). -/
def cycleOfTableWord (nbits w : Nat) : BusCycle :=
  let sel := w % 128
  let tick := nbits ≤ 3 || sel = 1 || sel = 2 || sel = 5 || sel = 6
  { sel := if tick then .tickport (BitVec.ofNat 3 w) else .regfile (BitVec.ofNat 7 w)
    data := BitVec.ofNat 8 (w / 256) }

/-- The operation the decoder reads from a table word: the table's selectors are those of the default
order. -/
def decodeTableWord (nbits w : Nat) : Option Instr :=
  match decode defaultOrder (cycleOfTableWord nbits w) with
  | .ok i => some i
  | .error _ => none

/-! ## Each row's word, written out from R64 (for the default order) -/

theorem decode_word_rdStatus (d : Byte) : decode defaultOrder ⟨.regfile 0b0000000#7, d⟩ = .ok .rdStatus := rfl
theorem decode_word_rdLenHi (d : Byte) : decode defaultOrder ⟨.regfile 0b0000100#7, d⟩ = .ok .rdLenHi := rfl
theorem decode_word_rdGpio (d : Byte) : decode defaultOrder ⟨.regfile 0b0001000#7, d⟩ = .ok .rdGpio := rfl
theorem decode_word_rdRxHead (d : Byte) : decode defaultOrder ⟨.regfile 0b0001100#7, d⟩ = .ok .rdRxHead := rfl
theorem decode_word_rdRxTail (d : Byte) : decode defaultOrder ⟨.regfile 0b0010000#7, d⟩ = .ok .rdRxTail := rfl
theorem decode_word_rdTxHead (d : Byte) : decode defaultOrder ⟨.regfile 0b0010100#7, d⟩ = .ok .rdTxHead := rfl
theorem decode_word_rdTxTail (d : Byte) : decode defaultOrder ⟨.regfile 0b0011000#7, d⟩ = .ok .rdTxTail := rfl
theorem decode_word_rdRxDiscard (d : Byte) : decode defaultOrder ⟨.regfile 0b0011100#7, d⟩ = .ok .rdRxDiscard := rfl
theorem decode_word_rdTxFeed (d : Byte) : decode defaultOrder ⟨.regfile 0b0100000#7, d⟩ = .ok .rdTxFeed := rfl
theorem decode_word_rdSpiFreq (d : Byte) : decode defaultOrder ⟨.regfile 0b0100100#7, d⟩ = .ok .rdSpiFreq := rfl
theorem decode_word_rdSs (d : Byte) : decode defaultOrder ⟨.regfile 0b0101000#7, d⟩ = .ok .rdSs := rfl
theorem decode_word_rdIntFired (d : Byte) : decode defaultOrder ⟨.regfile 0b0101100#7, d⟩ = .ok .rdIntFired := rfl
theorem decode_word_rdIntArmed (d : Byte) : decode defaultOrder ⟨.regfile 0b0110000#7, d⟩ = .ok .rdIntArmed := rfl
theorem decode_word_rdFifoData (d : Byte) : decode defaultOrder ⟨.regfile 0b0110100#7, d⟩ = .ok .rdFifoData := rfl
theorem decode_word_rdIdent (d : Byte) : decode defaultOrder ⟨.regfile 0b0111000#7, d⟩ = .ok .rdIdent := rfl
theorem decode_word_rdReserved (d : Byte) : decode defaultOrder ⟨.regfile 0b0111100#7, d⟩ = .ok .rdReserved := rfl
theorem decode_word_wrStatus (d : Byte) : decode defaultOrder ⟨.regfile 0b1000000#7, d⟩ = .ok (.wrStatus d) := rfl
theorem decode_word_wrLenHi (d : Byte) : decode defaultOrder ⟨.regfile 0b1000100#7, d⟩ = .ok (.wrLenHi d) := rfl
theorem decode_word_wrGpio (d : Byte) : decode defaultOrder ⟨.regfile 0b1001000#7, d⟩ = .ok (.wrGpio d) := rfl
theorem decode_word_wrRxHead (d : Byte) : decode defaultOrder ⟨.regfile 0b1001100#7, d⟩ = .ok (.wrRxHead d) := rfl
theorem decode_word_wrRxTail (d : Byte) : decode defaultOrder ⟨.regfile 0b1010000#7, d⟩ = .ok (.wrRxTail d) := rfl
theorem decode_word_wrTxHead (d : Byte) : decode defaultOrder ⟨.regfile 0b1010100#7, d⟩ = .ok (.wrTxHead d) := rfl
theorem decode_word_wrTxTail (d : Byte) : decode defaultOrder ⟨.regfile 0b1011000#7, d⟩ = .ok (.wrTxTail d) := rfl
theorem decode_word_wrRxDiscard (d : Byte) : decode defaultOrder ⟨.regfile 0b1011100#7, d⟩ = .ok (.wrRxDiscard d) := rfl
theorem decode_word_wrTxFeed (d : Byte) : decode defaultOrder ⟨.regfile 0b1100000#7, d⟩ = .ok (.wrTxFeed d) := rfl
theorem decode_word_wrSpiFreq (d : Byte) : decode defaultOrder ⟨.regfile 0b1100100#7, d⟩ = .ok (.wrSpiFreq d) := rfl
theorem decode_word_wrSs (d : Byte) : decode defaultOrder ⟨.regfile 0b1101000#7, d⟩ = .ok (.wrSs d) := rfl
theorem decode_word_wrIntFired (d : Byte) : decode defaultOrder ⟨.regfile 0b1101100#7, d⟩ = .ok (.wrIntFired d) := rfl
theorem decode_word_wrIntArmed (d : Byte) : decode defaultOrder ⟨.regfile 0b1110000#7, d⟩ = .ok (.wrIntArmed d) := rfl
theorem decode_word_wrFifoData (d : Byte) : decode defaultOrder ⟨.regfile 0b1110100#7, d⟩ = .ok (.wrFifoData d) := rfl
theorem decode_word_wrIdent (d : Byte) : decode defaultOrder ⟨.regfile 0b1111000#7, d⟩ = .ok (.wrIdent d) := rfl
theorem decode_word_wrReserved (d : Byte) : decode defaultOrder ⟨.regfile 0b1111100#7, d⟩ = .ok (.wrReserved d) := rfl
theorem decode_word_rdTickHi (d : Byte) : decode defaultOrder ⟨.tickport 0b000#3, d⟩ = .ok .rdTickHi := rfl
theorem decode_word_rdTickMid (d : Byte) : decode defaultOrder ⟨.tickport 0b001#3, d⟩ = .ok .rdTickMid := rfl
theorem decode_word_rdTickLo (d : Byte) : decode defaultOrder ⟨.tickport 0b010#3, d⟩ = .ok .rdTickLo := rfl
theorem decode_word_wrTickHi (d : Byte) : decode defaultOrder ⟨.tickport 0b100#3, d⟩ = .ok (.wrTickHi d) := rfl
theorem decode_word_wrTickMid (d : Byte) : decode defaultOrder ⟨.tickport 0b101#3, d⟩ = .ok (.wrTickMid d) := rfl
theorem decode_word_wrTickLo (d : Byte) : decode defaultOrder ⟨.tickport 0b110#3, d⟩ = .ok (.wrTickLo d) := rfl

end Sys2Proof
end

