-- ==== Sys2Proof/Config.lean ====
section
/-! DEFINITION. What an implementation fixes (00_scope.md R4) and the free values. Every `opaque`
constant here has no body: nothing can be proved of its value beyond its type. -/

namespace Sys2Proof

/-- The three host interrupt lines IRQ_SELECTOR may name (R4, R31). -/
inductive IrqLine
  | two
  | three
  | six
deriving DecidableEq, Repr, Inhabited

/-- The parameters of R4 that the board or the driver's build fixes. `Machine.State` carries one such
record, which no step writes; a claim about every state is a claim about every board. -/
structure Params where
  /-- BASE, REG_INDEX and the three tick addresses: where this board answers (R4, R35). -/
  place : Placement
  /-- IRQ_SELECTOR: the host line that carries this board's IRQ (R4, R35, R44). It has no semantics, so no rule
  reads it (D41). -/
  irqSelector : IrqLine
  /-- The caller-supplied default of `baseAddress` (R31, R90). -/
  defaultBase : Addr
  /-- The caller-supplied default of `interruptSelector` (R31, R90). -/
  defaultIrqLine : IrqLine
  /-- One-hot mask of `rx-discard-empty` in STATUS (R4, R25). -/
  stRxdEmptyMask : Byte
  /-- One-hot mask of the card-detect pin in GPIO and INT_FIRED (R4, R22, R26). -/
  pinCdMask : Byte
  /-- One-hot mask of the external pin in GPIO and INT_FIRED (R4, R22, R26). -/
  pinExtMask : Byte
  /-- Whether an edge sets FIRED while disarmed (R4, R177). -/
  latchWhenDisarmed : Bool
  /-- FIFO_DEPTH, the capacity of each FIFO (R4). -/
  fifoDepth : Nat
  /-- DUMMY_TX_BYTE, sent for each tx-feed dummy transfer (R4, R140). -/
  dummyTxByte : Byte
  /-- FW_MAJOR (R4, R27). -/
  fwMajor : Byte
  /-- FW_MINOR (R4, R27). -/
  fwMinor : Byte
  /-- FW_PATCH (R4, R27). -/
  fwPatch : Byte
  /-- TICK_HZ (R4): no rule reads it. -/
  tickHz : Nat
  /-- SS_IDLE, the SS value that selects no slave (R4, R88). -/
  ssIdle : Byte
  /-- CAL_MIN_SCALE (R4, R216). -/
  calMinScale : Nat
  /-- CAL_MAX_SCALE (R4, R216). -/
  calMaxScale : Nat
  /-- CAL_FALLBACK_ITERS (R4, R216). -/
  calFallbackIters : Nat
  /-- RETRY_BOUND (R4, R154); none: the poll loops are unbounded. -/
  retryBound : Option Nat
deriving DecidableEq, Repr

/-- The two status pins (R21). -/
inductive Pin
  | cd
  | ext
deriving DecidableEq, Repr, Inhabited

/-- The agents the uninterpreted schedule chooses among (R8). -/
inductive Agent
  | engine
  | pin (p : Pin)
  | tick
  | dispatcher
  | spurious
  | handler
  | app
  | timer
deriving DecidableEq, Repr, Inhabited

/-- A sample of the host's wall clock (R214). -/
structure ClockSample where
  sec : Nat
  usec : Fin 1000000
deriving DecidableEq, Repr, Inhabited

namespace Config

-- Raw material of the parameters: each constant ranges over exactly what R4 allows.
opaque stRxdEmptyBit : Fin 8
opaque pinCdBit : Fin 8
/-- The external pin's bit lies this many places, plus one, after the card-detect bit. -/
opaque pinExtGap : Fin 7
opaque latchWhenDisarmed : Bool
opaque fifoDepthLessOne : Fin 255
opaque dummyTxByte : Byte
opaque fwMajor : Byte
opaque fwMinor : Byte
opaque fwPatch : Byte
opaque base : Addr
opaque irqSelector : IrqLine
/-- The tick addresses lie this many places past the window's end, modulo 2^32. -/
opaque tickHiPast : Fin 4294967232
/-- Of the remaining places, in order, the one of TICK_MID. -/
opaque tickMidPick : Fin 4294967231
/-- Of the places then remaining, in order, the one of TICK_LO. -/
opaque tickLoPick : Fin 4294967230
opaque tickHz : Nat
opaque ssIdle : Byte
opaque calMinScaleOver1000 : Nat
opaque calMaxScaleOverMin : Nat
opaque calFallbackItersLessOne : Nat
opaque retryBound : Option Nat

-- The caller-supplied defaults of BoardConfig (R31, R90).
opaque defaultBase : Addr
opaque defaultIrqLine : IrqLine

/-- The one-hot mask of a bit. -/
def bitMask (b : Nat) : Byte := 1#8 <<< b

/-- The `n`-th place from 0 on that is not `a`. -/
def skip (a n : Nat) : Nat := if n < a then n else n + 1

/-- The address `n` places past the end of the window. -/
def pastWindow (n : Nat) : Addr := base + BitVec.ofNat 32 (64 + n)

/-- TICK_MID's place: any but TICK_HI's. -/
def tickMidPast : Nat := skip tickHiPast.val tickMidPick.val

/-- TICK_LO's place: any but the other two's. -/
def tickLoPast : Nat :=
  skip (max tickHiPast.val tickMidPast) (skip (min tickHiPast.val tickMidPast) tickLoPick.val)

/-- Where the board answers: REG_INDEX as R4 states it (the enumeration order, log 9), every address open:
BASE any, the tick addresses any three outside the window. -/
def placement : Placement where
  base := base
  order := defaultOrder
  tickHi := pastWindow tickHiPast.val
  tickMid := pastWindow tickMidPast
  tickLo := pastWindow tickLoPast

/-- The parameters of the board `State.reset` describes: uninterpreted, inside R4's ranges. -/
def params : Params where
  place := placement
  irqSelector := irqSelector
  defaultBase := defaultBase
  defaultIrqLine := defaultIrqLine
  stRxdEmptyMask := bitMask stRxdEmptyBit.val
  pinCdMask := bitMask pinCdBit.val
  pinExtMask := bitMask ((pinCdBit.val + 1 + pinExtGap.val) % 8)
  latchWhenDisarmed := latchWhenDisarmed
  fifoDepth := fifoDepthLessOne.val + 1
  dummyTxByte := dummyTxByte
  fwMajor := fwMajor
  fwMinor := fwMinor
  fwPatch := fwPatch
  tickHz := tickHz
  ssIdle := ssIdle
  calMinScale := 1000 + calMinScaleOver1000
  calMaxScale := 1000 + calMinScaleOver1000 + calMaxScaleOverMin
  calFallbackIters := calFallbackItersLessOne + 1
  retryBound := retryBound

-- Values that R36 calls unspecified after reset.
opaque resetLenHi : Byte
opaque resetRxCursor : Byte
opaque resetTxCursor : Byte
opaque resetShiftTx : Byte
opaque resetSpiFreq : Byte
opaque resetPinCd : Bool
opaque resetPinExt : Bool
opaque resetIdptr : BitVec 3
opaque resetTick : Tick
opaque resetTlatch : Tick

/-- The signal identifier before initialization supplies one (R29). -/
opaque defaultSignalId : Nat

/-- `any_u8()` (R5): the n-th free byte. -/
opaque anyByte : Nat → Byte
/-- The n-th free choice between two outcomes. -/
opaque anyChoice : Nat → Bool
/-- SlaveExchange (R141) where no event states the answer: free in the draw, SS and the byte sent. -/
opaque slaveExchange : Nat → Byte → Byte → Byte
/-- WallClock (R214) where `Env.clock` states no sample. -/
opaque wallClock : Nat → ClockSample
/-- TimerAvailable (R214). -/
opaque timerAvailable : Bool
/-- The schedule (R35) where `State.agenda` names no step. -/
opaque schedule : Nat → Agent

end Config

end Sys2Proof
end

