-- ==== Sys2Proof/Machine/State.lean ====
section
/-! DEFINITION. The machine's state (10_state.md), the reasons a step can stop, and the state after
reset (R36). State is plain data. -/

namespace Sys2Proof.Machine

/-! ## Device state -/

/-- What the board holds (10_state.md R14 to R28). IRQ, STATUS and GPIO are derived (R24 to R26). -/
structure Device where
  /-- LEN_HI (R14). -/
  lenHi : Byte
  /-- FEED (R15). -/
  feed : Count
  /-- DISCARD (R16). -/
  discard : Count
  /-- RXQ, head first (R17). -/
  rxq : List Byte
  /-- RX_HEAD (R17). -/
  rxHead : Byte
  /-- RX_TAIL (R17). -/
  rxTail : Byte
  /-- TXQ, head first (R18). -/
  txq : List Byte
  /-- TX_HEAD (R18). -/
  txHead : Byte
  /-- TX_TAIL (R18). -/
  txTail : Byte
  /-- BUSY (R19). -/
  busy : Bool
  /-- SHIFT_TX (R19). -/
  shiftTx : Byte
  /-- SPI_FREQ (R20). -/
  spiFreq : Byte
  /-- SS (R20). -/
  ss : Byte
  /-- PIN_CD (R21). -/
  pinCd : Bool
  /-- PIN_EXT (R21). -/
  pinExt : Bool
  /-- FIRED (R22). -/
  fired : Byte
  /-- ARMED (R23). -/
  armed : Byte
  /-- IDPTR (R27). -/
  idptr : BitVec 3
  /-- TICK (R28). -/
  tick : Tick
  /-- TLATCH (R28). -/
  tlatch : Tick
  /-- TLATCHED (R28). -/
  tlatched : Bool
deriving DecidableEq, Repr

/-! ## Host state in scope -/

/-- InterruptContext (R29). -/
structure InterruptContext where
  boardAddr : Addr
  signalId : Nat
  lastFired : Byte
deriving DecidableEq, Repr

/-- VERSION (R31). -/
structure Version where
  major : Byte
  minor : Byte
  patch : Byte
deriving DecidableEq, Repr

/-- CAL, the calibration state machine (R30, R216). -/
inductive CalState
  | idle
  | measure (scale : Nat) (first : Bool)
  | done
deriving DecidableEq, Repr

/-- IN_HANDLER together with the next of the handler's three operations (R31, R180): `idle` is
IN_HANDLER = false. -/
inductive HandlerPhase
  | idle
  | readFired
  | clearFired
  | raiseSignal
deriving DecidableEq, Repr

/-- An armed timer request (R228). -/
structure TimerRequest where
  /-- The handle it was armed on. -/
  handle : Nat
  /-- The relative deadline in microseconds; the model has no time, so no rule reads it. -/
  us : Nat
  /-- The deadline has passed. -/
  expired : Bool
deriving DecidableEq, Repr

/-- The deadline timer (R228). -/
structure TimerState where
  /-- The handles obtained and not released. -/
  handles : List Nat
  /-- The name of the next handle. -/
  next : Nat
  /-- The outstanding request. -/
  request : Option TimerRequest
deriving DecidableEq, Repr

/-- The condition `calibrate` reports (R216). -/
inductive CalCondition
  | ok
  | calibrationUnreliable
  | timerUnavailable
  | exhausted
deriving DecidableEq, Repr

/-- The error kinds of R240. -/
inductive ErrorKind
  | probeNotFound
  | unsupportedVersion (v : Version)
  | calibrationUnreliable
  | timerUnavailable
deriving DecidableEq, Repr

/-- What the last finished procedure returned or reported. -/
inductive Result
  /-- No procedure has finished. -/
  | none
  /-- A procedure without a value returned. -/
  | done
  /-- `probe` found a supported board (R104). -/
  | version (v : Version)
  /-- An error kind was reported (R240). -/
  | error (e : ErrorKind)
  /-- `spi_read`'s buffer (R150). -/
  | bytes (b : List Byte)
  /-- One byte: `spi_read1` (R151), `pinState` (R86), `resetInterrupt`'s mask (R181). -/
  | byte (b : Byte)
  /-- `readTicks`: the counter, zero-extended to 32 bits (R205). -/
  | ticks (v : BitVec 32)
  /-- `calibrate`'s condition (R216). -/
  | calibrated (c : CalCondition)
  /-- A transfer gave up after RETRY_BOUND polls; `n` bytes had been copied (R154, D35; log 10). -/
  | incomplete (n : Nat)
  /-- `openTimer`'s handle (R228). -/
  | handle (h : Nat)
  /-- `waitDeadline`: woken by a signal, or by the deadline (R228). -/
  | woken (bySignal : Bool)
deriving DecidableEq, Repr

/-! ### The application context's procedures, with their locals (R32) -/

/-- Where `spi_read` stands (R150). -/
inductive ReadPc
  | lenHi
  | feed
  | head
  | poll
  | copy
deriving DecidableEq, Repr

/-- Locals of `spi_read` (R150): the mirrored head `h`, the bytes still wanted, the pass's `n` of which
`k` are still to copy, the polls without progress, the buffer so far. -/
structure ReadVars where
  size : Count
  left : Nat
  h : Byte
  n : Nat
  k : Nat
  polls : Nat
  buf : List Byte
deriving DecidableEq, Repr

/-- Where `spi_read1` stands (R151). -/
inductive Read1Pc
  | lenHi
  | feed
  | head
  | spin (h : Byte) (polls : Nat)
  | data
deriving DecidableEq, Repr

/-- Where `spi_write` stands (R152). -/
inductive WritePc
  | lenHi
  | discard
  | tail
  | poll
  | push
  | status
deriving DecidableEq, Repr

/-- Locals of `spi_write` (R152): the bytes still to push, the mirrored tail `t`, the pass's `n` of
which `k` are still to push, the polls without progress. -/
structure WriteVars where
  size : Count
  rest : List Byte
  t : Byte
  n : Nat
  k : Nat
  polls : Nat
deriving DecidableEq, Repr

/-- Where `spi_write1` stands (R153). -/
inductive Write1Pc
  | lenHi
  | discard
  | tail
  | spin (t : Byte) (polls : Nat)
  | data
  | status (polls : Nat)
deriving DecidableEq, Repr

/-- Where `readTicks` stands (R205). -/
inductive TickPc
  | hi
  | mid (hi : Byte)
  | lo (hi mid : Byte)
deriving DecidableEq, Repr

/-- Where one measurement of `calibrate` stands (R216). -/
inductive CalPc
  | disablePreemption
  | sampleBefore
  | loop (t0 : ClockSample)
  | sampleAfter (t0 : ClockSample)
  | enablePreemption (t0 t1 : ClockSample)
  | decide (m : Int)
deriving DecidableEq, Repr

/-- The procedure the application context is in (R68); `idle` where it is in none. -/
inductive AppState
  | idle
  | init (baseAddress : Option Addr) (interruptSelector : Option Nat) (signalId : Nat)
  | destroy
  /-- `probe` with the bytes read so far (R103, R104). -/
  | probe (w : List Byte)
  | register
  | deregister
  | arm
  | disarm
  /-- `resetInterrupt`, before the snapshot is taken (none) and after it (R181). -/
  | resetInterrupt (snapshot : Option Byte)
  | waitSignal
  /-- The consumer's wait, which goes on to `resetInterrupt` (R182). -/
  | consume
  | pinState
  | spiRead (pc : ReadPc) (v : ReadVars)
  | spiRead1 (pc : Read1Pc)
  | spiWrite (pc : WritePc) (v : WriteVars)
  | spiWrite1 (pc : Write1Pc) (b : Byte)
  | readTicks (pc : TickPc)
  /-- `delay`; the deadline is none until the first `readTicks` has given `start` (R206). -/
  | delay (ticks : Nat) (deadline : Option Tick) (pc : TickPc)
  | calibrate (pc : CalPc)
  | shortWait
  | select (v : Byte)
  /-- `deselect` before its write of SS. -/
  | deselect
  | openTimer
  | closeTimer (h : Nat)
  | waitDeadline (h : Nat) (sigs : List Nat)
deriving DecidableEq, Repr

/-- The driver's state (R29 to R32) and the host dispatcher's (R31, R247). -/
structure HostState where
  /-- The BoardHandle's address, BASE as bound (R80, R90): where the driver's own accesses go. The board's
  window stands at `Params.place.base` (R35). -/
  base : Addr
  /-- IRQ_SELECTOR as bound (R90, R243): the line the driver asks for. The board's line is
  `Params.irqSelector` (R35). -/
  irqLine : IrqLine
  /-- A BoardHandle exists (R80, R271, R276). -/
  bound : Bool
  /-- R29. -/
  ictx : InterruptContext
  /-- itersPer400ns (R30). -/
  iters : Option Nat
  /-- CAL (R30). -/
  cal : CalState
  /-- PROBED (R31). -/
  probed : Bool
  /-- VERSION (R31). -/
  version : Version
  /-- REGISTERED (R31). -/
  registered : Bool
  /-- IN_HANDLER and the handler's next operation (R31, R180). -/
  handler : HandlerPhase
  /-- PREEMPT_OFF (R31, R247). -/
  preemptOff : Bool
  /-- The wake signals that are set, without repeats (R6, R182). -/
  signals : List Nat
  /-- A slave has been deselected and no short wait has run since (R279). -/
  holdOwed : Bool
  /-- R228. -/
  timer : TimerState
  /-- The running procedure and its locals (R32). -/
  app : AppState
  /-- What the last finished procedure reported. -/
  result : Result
deriving DecidableEq, Repr

/-! ## Environment, schedule and the whole -/

/-- The oracles' standing answers (R6, R35). -/
structure Env where
  /-- False: an absent or faulty board (R58). -/
  boardPresent : Bool
  /-- The next samples of WallClock (R214). -/
  clock : List ClockSample
  /-- TimerAvailable (R214). -/
  timerAvailable : Bool
deriving DecidableEq, Repr

/-- One step of a run: a bus transaction of the application context, a step of R66, or a step of the
host beside the block. -/
inductive Event
  /-- A transaction by its selector: a line of R67. -/
  | bus (c : BusCycle)
  /-- A transaction by its address (R81). -/
  | access (a : Access)
  /-- R140. -/
  | engLaunch
  /-- R141; `r` is the slave's answer. -/
  | engComplete (r : Byte)
  /-- R177. -/
  | pinChange (p : Pin)
  /-- R200. -/
  | tickInc
  /-- R247. -/
  | irqDispatch
  /-- A dispatch whose `IRQ = 1` no longer holds or never held (R249, D42). -/
  | irqSpurious
  /-- The interrupt context's next operation (R180). -/
  | handlerStep
  /-- A host procedure is called in a context. -/
  | call (ctx : Context) (p : Call)
  /-- The application context's next step in its procedure. -/
  | appStep
  /-- The armed deadline passes (R228). -/
  | deadline
  /-- A signal is set from outside (R228: an externally supplied signal set). -/
  | signal (n : Nat)
deriving DecidableEq, Repr

/-- One completed byte exchange on the SPI stream (R40 c, R141). -/
structure Exchange where
  ss : Byte
  tx : Byte
  rx : Byte
deriving DecidableEq, Repr

/-- The whole machine (R10). -/
structure State where
  /-- The parameters (R4, R35), BASE, IRQ_SELECTOR and REG_INDEX among them; no step writes them. -/
  cfg : Params
  dev : Device
  host : HostState
  env : Env
  /-- The byte the last read transaction returned: the `d` out of R64. The model's own field. -/
  readData : Byte
  /-- The index of the next free value (R5 `any_u8`). The model's own field. -/
  draws : Nat
  /-- The steps still to come (R35's schedule). The model's own field. -/
  agenda : List Event
  /-- The exchanges completed so far, oldest first. The model's own field. -/
  wire : List Exchange
deriving DecidableEq, Repr

/-- The block raises no exception, no trap and no bus error (60_exceptions.md R241;
93_implementation_defined.md: "NO entry uses it"). -/
inductive Fault
deriving DecidableEq, Repr

/-- A labelled step, for `Refusal.notEnabled`. -/
inductive StepLabel
  | hostLine
  | engLaunch
  | engComplete
  | irqDispatch
  | irqSpurious
  | handlerStep
  | call
  | appStep
  | deadline
deriving DecidableEq, Repr

/-- `refuse(tag)` (00_scope.md R6): the spec gives the step no next state. Each is safe: the model stops
where a real board might go on. -/
inductive Refusal
  /-- An arm of `exec` without a meaning; none is left. Safe. -/
  | notModelled (mnemonic : String)
  /-- An access between registers (R42, U1). Raised by the bus. Safe. -/
  | unmappedOffset
  /-- A read of a write-only register (R82, U2). Raised by its meaning. Safe. -/
  | readOfWriteOnly (r : RegName)
  /-- A write of a read-only register (R83, U2). Raised by its meaning. Safe. -/
  | writeOfReadOnly (r : RegName)
  /-- An access to RESERVED (R89, U3). Raised by its meaning. Safe. -/
  | reservedRegister
  /-- A write of the tick port, or `t = 3` (R204, U4). Raised by its meaning and by the bus. Safe. -/
  | tickWrite
  /-- An access of a width other than one byte (R43, U5). Raised by the bus. Safe. -/
  | badWidth
  /-- WR.INT_ARMED with data other than 0x00 and 0xFF (R176, U6). Safe. -/
  | armedValueReserved
  /-- RD.FIFO_DATA with the receive FIFO empty (R128, U7). Safe. -/
  | rxUnderflow
  /-- WR.FIFO_DATA with the transmit FIFO full (R129, U8). Safe. -/
  | txOverflow
  /-- A count written while the engine is not quiet (R130, U9). Safe. -/
  | countWriteWhileActive
  /-- SPI_FREQ or SS written while the engine is not quiet (R87, R88, U10). Safe. -/
  | configWriteWhileActive
  /-- `shortWait` before calibration (R220, U11). Raised by the procedure. Safe. -/
  | uncalibratedWait
  /-- `delay` with `ticks >= 2^23` (R206, U12). Raised by the call. Safe. -/
  | delayRange
  /-- `calibrate` run a second time (R216, U13). Raised by the call. Safe. -/
  | alreadyCalibrated
  /-- An operation other than RD.IDENT, or a procedure that makes one, before a successful probe (R108, R272,
  U60). Raised by the call and by the bus line. Safe. -/
  | notProbed
  /-- A transaction, or a procedure that makes one, where no BASE is bound (R271). Raised by the call and by the
  bus line. Safe. -/
  | notBound
  /-- A write of SS that selects a slave before the short wait owed to the last deselecting one (R279, D34).
  Raised by the application context's transaction. Safe. -/
  | deselectHold
  /-- A procedure called from the interrupt context (U60, R251). Raised by the call. Safe. -/
  | wrongContext
  /-- A procedure or a transaction issued while the application context is inside a procedure
  (U60, R156). Raised by the call and by the bus line. Safe. -/
  | reentered
  /-- `spi_write` with more bytes than a u16 counts (R152). Raised by the call. Safe. -/
  | sizeRange
  /-- `waitDeadline` on a handle that is not open (R228). Raised by the call. Safe. -/
  | timerNotOpen
  /-- A labelled step whose `pre:` does not hold (R7). Raised by the agents. Safe. -/
  | notEnabled (l : StepLabel)
deriving DecidableEq, Repr

/-- What a step or a meaning answers. -/
abbrev Out := Host.Outcome State Fault Refusal

/-! ## Reset (R36) -/

/-- The board after power-on (R36): "unspecified" values are uninterpreted constants of Config. -/
def Device.reset (cfg : Params) : Device where
  lenHi := Config.resetLenHi
  feed := 0
  discard := 0
  rxq := []
  rxHead := Config.resetRxCursor
  rxTail := Config.resetRxCursor
  txq := []
  txHead := Config.resetTxCursor
  txTail := Config.resetTxCursor
  busy := false
  shiftTx := Config.resetShiftTx
  spiFreq := Config.resetSpiFreq
  ss := cfg.ssIdle
  pinCd := Config.resetPinCd
  pinExt := Config.resetPinExt
  fired := 0
  armed := 0x00
  idptr := Config.resetIdptr
  tick := Config.resetTick
  tlatch := Config.resetTlatch
  tlatched := false

/-- The driver before it has done anything (R36, R29, R31). R36 says of the wake signal `signalId` that it is not set;
that no other signal is set either is the model's (DESIGN CHOICE, unsafe, log 4). -/
def HostState.reset (cfg : Params) : HostState where
  base := cfg.defaultBase
  irqLine := cfg.defaultIrqLine
  bound := false
  ictx := { boardAddr := cfg.defaultBase, signalId := Config.defaultSignalId, lastFired := 0 }
  iters := none
  cal := .idle
  probed := false
  version := { major := 0, minor := 0, patch := 0 }
  registered := false
  handler := .idle
  preemptOff := false
  signals := []
  holdOwed := false
  timer := { handles := [], next := 0, request := none }
  app := .idle
  result := .none

/-- The machine right after reset (R36): a present board, an idle host, nothing scheduled. -/
def State.reset : State where
  cfg := Config.params
  dev := Device.reset Config.params
  host := HostState.reset Config.params
  env := { boardPresent := true, clock := [], timerAvailable := Config.timerAvailable }
  readData := 0
  draws := 0
  agenda := []
  wire := []

end Sys2Proof.Machine
end

