-- ==== Sys2Proof/Machine/Flags.lean ====
section
/-! DEFINITION. The derived bytes and flags (10_state.md R24 to R26, R33) and the engine's conditions
(R130, R140). The block has no arithmetic condition codes. -/

namespace Sys2Proof.Machine

/-- STATUS over a drawn byte (R25, R84): `rx-discard-empty` is set exactly while DISCARD is 0; every other
bit is the draw's. -/
def statusByte (cfg : Params) (d : Device) (drawn : Byte) : Byte :=
  if d.discard = 0 then drawn ||| cfg.stRxdEmptyMask else drawn &&& ~~~cfg.stRxdEmptyMask

/-- A mask where a pin is high, 0 where it is low. -/
def pinBits (mask : Byte) (level : Bool) : Byte := if level then mask else 0

/-- GPIO over a drawn byte (R26, R86): the two pins' present levels; every other bit is the draw's. -/
def gpioByte (cfg : Params) (d : Device) (drawn : Byte) : Byte :=
  (drawn &&& ~~~(cfg.pinCdMask ||| cfg.pinExtMask))
    ||| pinBits cfg.pinCdMask d.pinCd ||| pinBits cfg.pinExtMask d.pinExt

/-- IRQ (R24): a level, `(FIRED & ARMED) != 0`. -/
def Device.irq (d : Device) : Bool := d.fired &&& d.armed != 0

/-- `EngineQuiet()` (R130): no byte exchange pending or in flight. -/
def Device.quiet (d : Device) : Bool :=
  d.feed == 0 && d.discard == 0 && d.txq.isEmpty && !d.busy

/-- A sink exists for the byte that will come back (R140). -/
def Device.hasSink (cfg : Params) (d : Device) : Bool :=
  d.discard != 0 || decide (d.rxq.length < cfg.fifoDepth)

/-- A source of a byte to send exists (R140). -/
def Device.hasSource (d : Device) : Bool := !d.txq.isEmpty || d.feed != 0

/-- ENG.LAUNCH's `pre:` (R140). -/
def Device.canLaunch (cfg : Params) (d : Device) : Bool :=
  !d.busy && d.hasSource && d.hasSink cfg

/-- The latch mask of a pin (R22, R177). -/
def pinMask (cfg : Params) : Pin → Byte
  | .cd => cfg.pinCdMask
  | .ext => cfg.pinExtMask

/-- Whether an edge sets the latch (R177). -/
def Device.captures (cfg : Params) (d : Device) : Bool :=
  d.armed == 0xFF || cfg.latchWhenDisarmed

end Sys2Proof.Machine
end

