-- ==== Sys2Proof/Machine/Operands.lean ====
section
/-! DEFINITION. Operands the block assembles or takes apart (30_encoding.md R63, 20_memory.md R45), the
cursor arithmetic (R121), the identification bytes (R27) and the tick arithmetic (R205, R207). -/

namespace Sys2Proof.Machine

/-- A transfer count: LEN_HI is the high byte, the trigger's data the low one (R63, R126, R127). -/
def transferCount (lenHi d : Byte) : Count := lenHi ++ d

/-- `size[15:8]`, what a driver writes to LEN_HI (R63). -/
def countHigh (size : Count) : Byte := size.extractLsb' 8 8

/-- `size[7:0]`, what a driver writes to the trigger (R63). -/
def countLow (size : Count) : Byte := size.extractLsb' 0 8

/-- `occ(head, tail) = tail -_8 head` (R121). -/
def occupancy (head tail : Byte) : Byte := tail - head

/-- `v[23:16]` (R201). -/
def tickHigh (v : Tick) : Byte := v.extractLsb' 16 8

/-- `v[15:8]` (R202). -/
def tickMiddle (v : Tick) : Byte := v.extractLsb' 8 8

/-- `v[7:0]` (R203). -/
def tickLow (v : Tick) : Byte := v.extractLsb' 0 8

/-- `{hi, mid, lo}` (R205). -/
def tickValue (hi mid lo : Byte) : Tick := hi ++ mid ++ lo

/-- `sint_24` (R5, R207). -/
def sint24 (v : Tick) : Int := v.toInt

/-- What TICK_MID and TICK_LO read from: the latch while latched, the live counter otherwise (R202,
R203). -/
def Device.tickSeen (d : Device) : Tick := if d.tlatched then d.tlatch else d.tick

/-- IDROM (R27, R100): the marker, then the firmware version. -/
def idrom (cfg : Params) (i : BitVec 3) : Byte :=
  match i.toNat with
  | 0 => 0xFF
  | 1 => 0x73
  | 2 => 0x70
  | 3 => 0x64
  | 4 => 0x72
  | 5 => cfg.fwMajor
  | 6 => cfg.fwMinor
  | _ => cfg.fwPatch

/-- Where this machine's board answers (R4, R35, R40): a parameter, which no step writes. -/
def State.placement (s : State) : Placement := s.cfg.place

end Sys2Proof.Machine
end

