-- ==== Sys2Proof/Machine/Ops.lean ====
section
/-! DEFINITION. The shared operations: free values, a read's answer, an access to a board that may be
absent (R58), the two queues (R17, R18), and taking and leaving the interrupt (R247, R248). The block has
no memory (R40); its only storage is the registers and the two queues. -/

namespace Sys2Proof.Machine

/-! ## Updates of the parts -/

/-- The board is now `d`. -/
def State.setDev (s : State) (d : Device) : State := { s with dev := d }

/-- The host is now `h`. -/
def State.setHost (s : State) (h : HostState) : State := { s with host := h }

/-- The transaction returned the byte `v`. -/
def State.answer (s : State) (v : Byte) : State := { s with readData := v }

/-- One free value has been used. -/
def State.drawn (s : State) : State := { s with draws := s.draws + 1 }

/-! ## Free values -/

/-- `any_u8()` (R5): the next free byte. -/
def State.anyByte (s : State) : Byte := Config.anyByte s.draws

/-! ## Accesses (R58, R81) -/

/-- A read of a board register: on an absent board a draw (R58), else what `k` says. -/
def readAccess (s : State) (k : State → Out) : Out :=
  if s.env.boardPresent then k s else .next (s.drawn.answer s.anyByte)

/-- A write of a board register: on an absent board without effect (R58), else what `k` says. -/
def writeAccess (s : State) (k : State → Out) : Out :=
  if s.env.boardPresent then k s else .next s

/-- A read without side effect (R47): the byte `f` of the device. -/
def plainRead (s : State) (f : Device → Byte) : Out :=
  readAccess s fun s => .next (s.answer (f s.dev))

/-- A read whose byte is made from a draw (R84, R86). -/
def drawnRead (s : State) (f : Params → Device → Byte → Byte) : Out :=
  readAccess s fun s => .next (s.drawn.answer (f s.cfg s.dev s.anyByte))

/-- A write that changes the device. -/
def plainWrite (s : State) (f : Device → Device) : Out :=
  writeAccess s fun s => .next (s.setDev (f s.dev))

/-- A write whose `pre:` is `EngineQuiet()` (R130, R85, R87, R88, R126, R127). -/
def quietWrite (s : State) (r : Refusal) (f : Device → Device) : Out :=
  writeAccess s fun s => if s.dev.quiet then .next (s.setDev (f s.dev)) else .refused r

/-- A read the spec refuses on a present board (R82, R89). -/
def refusedRead (s : State) (r : Refusal) : Out := readAccess s fun _ => .refused r

/-- A write the spec refuses on a present board (R83, R89). -/
def refusedWrite (s : State) (r : Refusal) : Out := writeAccess s fun _ => .refused r

/-! ## The queues (R17, R18, R121) -/

/-- Append to RXQ and advance RX_TAIL (R141). -/
def Device.pushRx (d : Device) (r : Byte) : Device :=
  { d with rxq := d.rxq ++ [r], rxTail := d.rxTail + 1 }

/-- RXQ is now `q`, one byte having left it: RX_HEAD advances (R128). -/
def Device.popRx (d : Device) (q : List Byte) : Device :=
  { d with rxq := q, rxHead := d.rxHead + 1 }

/-- Append to TXQ and advance TX_TAIL (R129). -/
def Device.pushTx (d : Device) (b : Byte) : Device :=
  { d with txq := d.txq ++ [b], txTail := d.txTail + 1 }

/-- TXQ is now `q`, one byte having left it: TX_HEAD advances (R140). -/
def Device.popTx (d : Device) (q : List Byte) : Device :=
  { d with txq := q, txHead := d.txHead + 1 }

/-! ## Signals (R6) -/

/-- `Signal(n)`: set a wake signal; a second raise changes nothing (R182). -/
def HostState.raise (h : HostState) (n : Nat) : HostState :=
  { h with signals := if n ∈ h.signals then h.signals else h.signals ++ [n] }

/-- `Wait(n)` returning: the signal is cleared (R6). -/
def HostState.clear (h : HostState) (n : Nat) : HostState :=
  { h with signals := h.signals.filter (· != n) }

/-! ## The interrupt (60_exceptions.md R247, R248) -/

/-- IN_HANDLER (R31). -/
def HostState.inHandler (h : HostState) : Bool := h.handler != .idle

/-- Whether the dispatcher may start the handler, IRQ aside (R247, R249). -/
def HostState.dispatchable (h : HostState) : Bool :=
  h.registered && !h.inHandler && !h.preemptOff

/-- Entry (R247): IN_HANDLER becomes true and the handler starts at its first operation. The block saves
nothing and none of its own state changes: there is no cause register, saved pc, mode bit or vector. -/
def State.takeInterrupt (s : State) : State :=
  s.setHost { s.host with handler := .readFired }

/-- Return (R248): the handler ends; there is nothing to restore. -/
def State.leaveInterrupt (s : State) : State :=
  s.setHost { s.host with handler := .idle }

end Sys2Proof.Machine
end

