-- ==== Sys2Proof/Machine/Fifo.lean ====
section
/-! DEFINITION. Meanings of the cursor registers, the triggers and the data port (42_fifo_streaming.md
R122 to R129). -/

namespace Sys2Proof.Machine

/-- RD.RX_HEAD (R122). -/
def execRdRxHead (s : State) : Out := plainRead s Device.rxHead

/-- RD.RX_TAIL (R123). -/
def execRdRxTail (s : State) : Out := plainRead s Device.rxTail

/-- RD.TX_HEAD (R124). -/
def execRdTxHead (s : State) : Out := plainRead s Device.txHead

/-- RD.TX_TAIL (R125). -/
def execRdTxTail (s : State) : Out := plainRead s Device.txTail

/-- WR.RX_DISCARD (R126): the count replaces DISCARD; LEN_HI keeps its value. -/
def execWrRxDiscard (d : Byte) (s : State) : Out :=
  quietWrite s .countWriteWhileActive fun dev => { dev with discard := transferCount dev.lenHi d }

/-- WR.TX_FEED (R127): the count replaces FEED; LEN_HI keeps its value. -/
def execWrTxFeed (d : Byte) (s : State) : Out :=
  quietWrite s .countWriteWhileActive fun dev => { dev with feed := transferCount dev.lenHi d }

/-- RD.FIFO_DATA (R128): the head of RXQ; RX_HEAD advances; refused on an empty queue. -/
def execRdFifoData (s : State) : Out :=
  readAccess s fun s =>
    match s.dev.rxq with
    | b :: q => .next ((s.setDev (s.dev.popRx q)).answer b)
    | [] => .refused .rxUnderflow

/-- WR.FIFO_DATA (R129): append to TXQ; TX_TAIL advances; refused on a full queue. -/
def execWrFifoData (d : Byte) (s : State) : Out :=
  writeAccess s fun s =>
    if s.dev.txq.length < s.cfg.fifoDepth then .next (s.setDev (s.dev.pushTx d))
    else .refused .txOverflow

end Sys2Proof.Machine
end

