-- ==== Sys2Proof/Machine/Ident.lean ====
section
/-! DEFINITION. The identification register and the probe's search (41_identification.md). -/

namespace Sys2Proof.Machine

/-- RD.IDENT (R101): the byte at IDPTR, then IDPTR advances modulo 8. -/
def execRdIdent (s : State) : Out :=
  readAccess s fun s =>
    .next ((s.setDev { s.dev with idptr := s.dev.idptr + 1 }).answer (idrom s.cfg s.dev.idptr))

/-- The window's byte `k` places after `r`, modulo 8 (R104). -/
def windowAt (w : List Byte) (r k : Nat) : Byte := w.getD ((r + k) % 8) 0

/-- Whether the marker stands at rotation `r` (R104). -/
def markerAt (w : List Byte) (r : Nat) : Bool :=
  windowAt w r 0 == 0xFF && windowAt w r 1 == 0x73 && windowAt w r 2 == 0x70
    && windowAt w r 3 == 0x64 && windowAt w r 4 == 0x72

/-- The version bytes of rotation `r` (R104). -/
def versionAt (w : List Byte) (r : Nat) : Version :=
  { major := windowAt w r 5, minor := windowAt w r 6, patch := windowAt w r 7 }

/-- What the search of the eight rotations in ascending order finds (R104, R105). -/
inductive ProbeVerdict
  | found (v : Version)
  | unsupported (v : Version)
  | notFound
deriving DecidableEq, Repr

/-- The rotation search of R104 over a window of eight bytes. -/
def searchWindow (w : List Byte) : ProbeVerdict :=
  match (List.range 8).find? (markerAt w) with
  | some r => if (versionAt w r).major = 1 then .found (versionAt w r) else .unsupported (versionAt w r)
  | none => .notFound

end Sys2Proof.Machine
end

