-- ==== Sys2Proof/WellFormed.lean ====
section
/-! DEFINITION. Which terms the spec admits: parameters inside R4's ranges, operands with a meaning,
selectors of an operation, one-byte accesses, calls a procedure accepts. -/

namespace Sys2Proof

/-- A mask with exactly one bit set (R4). -/
def oneHot (m : Byte) : Bool := (List.range 8).any fun b => m == Config.bitMask b

/-- The ranges of R4: REG_INDEX a bijection, the tick port outside the window, one-hot masks, two
distinct pins, a depth of 1..255, calibration scales in order, a positive fallback. -/
def Params.wf (p : Params) : Bool :=
  p.place.wf && oneHot p.stRxdEmptyMask && oneHot p.pinCdMask && oneHot p.pinExtMask
    && p.pinCdMask != p.pinExtMask
    && (1 ≤ p.fifoDepth && p.fifoDepth ≤ 255 : Bool)
    && (1000 ≤ p.calMinScale && p.calMinScale ≤ p.calMaxScale : Bool)
    && (1 ≤ p.calFallbackIters : Bool)

/-- The legal values of ARMED (R23, R176): all bits set, and 0. -/
def armedLegal (d : Byte) : Bool := d == 0x00#8 || d == 0xFF#8

/-- An operation whose data byte the spec gives a meaning (R65): every one but a write of INT_ARMED
with data other than 0x00 and 0xFF. -/
def Instr.wf : Instr → Bool
  | .wrIntArmed d => armedLegal d
  | _ => true

/-- A selector of one of R64's rows (R65): lane 00, or a tick byte other than `t = 3`. -/
def Selector.wf : Selector → Bool
  | .regfile v => v.extractLsb' 0 2 == 0#2
  | .tickport v => v.extractLsb' 0 2 != 3#2

/-- An access of the one width there is (R43). -/
def Access.wf (a : Access) : Bool := a.width == 1

/-- A call whose operands the procedure's rule admits: a size that fits the u16 of R152, ticks below
2^23 (R206). -/
def Call.wf : Call → Bool
  | .spiWrite buf => decide (buf.length ≤ 65535)
  | .delay ticks => decide (ticks < 2 ^ 23)
  | _ => true

end Sys2Proof
end

