-- ==== Sys2Proof/Machine/Interrupt.lean ====
section
/-! DEFINITION. Meanings of the interrupt registers (43_interrupt_channel.md R172 to R176). -/

namespace Sys2Proof.Machine

/-- RD.INT_FIRED (R172): the latch, without side effect. -/
def execRdIntFired (s : State) : Out := plainRead s Device.fired

/-- WR.INT_FIRED (R173): clears the latch whatever the data. -/
def execWrIntFired (_d : Byte) (s : State) : Out := plainWrite s fun dev => { dev with fired := 0 }

/-- WR.INT_ARMED (R174, R176): stores 0x00 or 0xFF; any other byte is refused; FIRED is kept. -/
def execWrIntArmed (d : Byte) (s : State) : Out :=
  writeAccess s fun s =>
    if armedLegal d then .next (s.setDev { s.dev with armed := d }) else .refused .armedValueReserved

end Sys2Proof.Machine
end

