-- ==== Sys2Proof/Machine/Ticks.lean ====
section
/-! DEFINITION. Meanings of the tick port (44_timing.md R201 to R204). The port is a register set of its
own (R28, C3): R58's absent board does not reach it (log 5). -/

namespace Sys2Proof.Machine

/-- RD.TICK_HI (R201): latches all three bytes, again if already latched. -/
def execRdTickHi (s : State) : Out :=
  .next ((s.setDev { s.dev with tlatch := s.dev.tick, tlatched := true }).answer (tickHigh s.dev.tick))

/-- RD.TICK_MID (R202): the latched middle byte, the live one where not latched. -/
def execRdTickMid (s : State) : Out := .next (s.answer (tickMiddle s.dev.tickSeen))

/-- RD.TICK_LO (R203): the latched low byte, the live one where not latched; unlatches. -/
def execRdTickLo (s : State) : Out :=
  .next ((s.setDev { s.dev with tlatched := false }).answer (tickLow s.dev.tickSeen))

/-- WR.TICK_HI (R204). -/
def execWrTickHi (_d : Byte) (_s : State) : Out := .refused .tickWrite

/-- WR.TICK_MID (R204). -/
def execWrTickMid (_d : Byte) (_s : State) : Out := .refused .tickWrite

/-- WR.TICK_LO (R204). -/
def execWrTickLo (_d : Byte) (_s : State) : Out := .refused .tickWrite

end Sys2Proof.Machine
end

