-- ==== Sys2Proof/Machine/Transport.lean ====
section
/-! DEFINITION. Meanings of the plain registers (40_register_transport.md R82 to R89), of the refused
reads of write-only registers (R82), of the refused writes of read-only registers (R83) and of RESERVED
(R89). -/

namespace Sys2Proof.Machine

/-- RD.STATUS (R84). -/
def execRdStatus (s : State) : Out := drawnRead s statusByte

/-- RD.GPIO (R86). -/
def execRdGpio (s : State) : Out := drawnRead s gpioByte

/-- WR.LEN_HI (R85). -/
def execWrLenHi (d : Byte) (s : State) : Out :=
  quietWrite s .countWriteWhileActive fun dev => { dev with lenHi := d }

/-- WR.SPI_FREQ (R87). -/
def execWrSpiFreq (d : Byte) (s : State) : Out :=
  quietWrite s .configWriteWhileActive fun dev => { dev with spiFreq := d }

/-- WR.SS (R88). -/
def execWrSs (d : Byte) (s : State) : Out :=
  quietWrite s .configWriteWhileActive fun dev => { dev with ss := d }

/-- RD.LEN_HI (R82). -/
def execRdLenHi (s : State) : Out := refusedRead s (.readOfWriteOnly .lenHi)

/-- RD.RX_DISCARD (R82). -/
def execRdRxDiscard (s : State) : Out := refusedRead s (.readOfWriteOnly .rxDiscard)

/-- RD.TX_FEED (R82). -/
def execRdTxFeed (s : State) : Out := refusedRead s (.readOfWriteOnly .txFeed)

/-- RD.SPI_FREQ (R82). -/
def execRdSpiFreq (s : State) : Out := refusedRead s (.readOfWriteOnly .spiFreq)

/-- RD.SS (R82). -/
def execRdSs (s : State) : Out := refusedRead s (.readOfWriteOnly .ss)

/-- RD.INT_ARMED (R82, R175). -/
def execRdIntArmed (s : State) : Out := refusedRead s (.readOfWriteOnly .intArmed)

/-- RD.RESERVED (R89). -/
def execRdReserved (s : State) : Out := refusedRead s .reservedRegister

/-- WR.STATUS (R83). -/
def execWrStatus (_d : Byte) (s : State) : Out := refusedWrite s (.writeOfReadOnly .status)

/-- WR.GPIO (R83). -/
def execWrGpio (_d : Byte) (s : State) : Out := refusedWrite s (.writeOfReadOnly .gpio)

/-- WR.RX_HEAD (R83). -/
def execWrRxHead (_d : Byte) (s : State) : Out := refusedWrite s (.writeOfReadOnly .rxHead)

/-- WR.RX_TAIL (R83). -/
def execWrRxTail (_d : Byte) (s : State) : Out := refusedWrite s (.writeOfReadOnly .rxTail)

/-- WR.TX_HEAD (R83). -/
def execWrTxHead (_d : Byte) (s : State) : Out := refusedWrite s (.writeOfReadOnly .txHead)

/-- WR.TX_TAIL (R83). -/
def execWrTxTail (_d : Byte) (s : State) : Out := refusedWrite s (.writeOfReadOnly .txTail)

/-- WR.IDENT (R83, R102). -/
def execWrIdent (_d : Byte) (s : State) : Out := refusedWrite s (.writeOfReadOnly .ident)

/-- WR.RESERVED (R89). -/
def execWrReserved (_d : Byte) (s : State) : Out := refusedWrite s .reservedRegister

end Sys2Proof.Machine
end

