-- ==== Sys2Proof/Machine/Dispatch.lean ====
section
/-! DEFINITION. One arm per operation of 30_encoding.md R64, each a direct call of its meaning. -/

namespace Sys2Proof.Machine

def exec (i : Instr) (s : State) : Host.Outcome State Fault Refusal :=
  match i with
  | .rdStatus => Sys2Proof.Machine.execRdStatus s
  | .rdLenHi => Sys2Proof.Machine.execRdLenHi s
  | .rdGpio => Sys2Proof.Machine.execRdGpio s
  | .rdRxHead => Sys2Proof.Machine.execRdRxHead s
  | .rdRxTail => Sys2Proof.Machine.execRdRxTail s
  | .rdTxHead => Sys2Proof.Machine.execRdTxHead s
  | .rdTxTail => Sys2Proof.Machine.execRdTxTail s
  | .rdRxDiscard => Sys2Proof.Machine.execRdRxDiscard s
  | .rdTxFeed => Sys2Proof.Machine.execRdTxFeed s
  | .rdSpiFreq => Sys2Proof.Machine.execRdSpiFreq s
  | .rdSs => Sys2Proof.Machine.execRdSs s
  | .rdIntFired => Sys2Proof.Machine.execRdIntFired s
  | .rdIntArmed => Sys2Proof.Machine.execRdIntArmed s
  | .rdFifoData => Sys2Proof.Machine.execRdFifoData s
  | .rdIdent => Sys2Proof.Machine.execRdIdent s
  | .rdReserved => Sys2Proof.Machine.execRdReserved s
  | .wrStatus d => Sys2Proof.Machine.execWrStatus d s
  | .wrLenHi d => Sys2Proof.Machine.execWrLenHi d s
  | .wrGpio d => Sys2Proof.Machine.execWrGpio d s
  | .wrRxHead d => Sys2Proof.Machine.execWrRxHead d s
  | .wrRxTail d => Sys2Proof.Machine.execWrRxTail d s
  | .wrTxHead d => Sys2Proof.Machine.execWrTxHead d s
  | .wrTxTail d => Sys2Proof.Machine.execWrTxTail d s
  | .wrRxDiscard d => Sys2Proof.Machine.execWrRxDiscard d s
  | .wrTxFeed d => Sys2Proof.Machine.execWrTxFeed d s
  | .wrSpiFreq d => Sys2Proof.Machine.execWrSpiFreq d s
  | .wrSs d => Sys2Proof.Machine.execWrSs d s
  | .wrIntFired d => Sys2Proof.Machine.execWrIntFired d s
  | .wrIntArmed d => Sys2Proof.Machine.execWrIntArmed d s
  | .wrFifoData d => Sys2Proof.Machine.execWrFifoData d s
  | .wrIdent d => Sys2Proof.Machine.execWrIdent d s
  | .wrReserved d => Sys2Proof.Machine.execWrReserved d s
  | .rdTickHi => Sys2Proof.Machine.execRdTickHi s
  | .rdTickMid => Sys2Proof.Machine.execRdTickMid s
  | .rdTickLo => Sys2Proof.Machine.execRdTickLo s
  | .wrTickHi d => Sys2Proof.Machine.execWrTickHi d s
  | .wrTickMid d => Sys2Proof.Machine.execWrTickMid d s
  | .wrTickLo d => Sys2Proof.Machine.execWrTickLo d s

end Sys2Proof.Machine
end

