-- ==== Sys2Proof/Machine/Bus.lean ====
section
/-! DEFINITION. A bus transaction reaching the block: decode, then the operation (40_register_transport.md
R81); what a transaction that selects no operation does; and what a host procedure sees of it (R6 `Rd`,
`Wr`). -/

namespace Sys2Proof.Machine

/-- A transaction that selects no operation (R42, R43, R65, R204). An absent board answers a byte access to
the window with a draw and ignores a write (R58). An access to some other address does not involve the
block: it changes none of the block's state, and the byte a read returns is not the block's (R81;
DESIGN CHOICE log 13). -/
def rejected (e : DecodeError) (write : Bool) (s : State) : Out :=
  match e with
  | .unmappedOffset =>
    if write then refusedWrite s .unmappedOffset else refusedRead s .unmappedOffset
  | .unusedTick => .refused .tickWrite
  | .badWidth => .refused .badWidth
  | .notThisBlock => if write then .next s else .next (s.drawn.answer s.anyByte)

/-- One transaction by its selector (R60, R61, R64). -/
def runCycle (c : BusCycle) (s : State) : Out :=
  match decode s.cfg.place.order c with
  | .ok i => exec i s
  | .error e => rejected e c.sel.isWrite s

/-- One transaction by its address (R81). -/
def runAccess (a : Access) (s : State) : Out :=
  match decodeAccess s.placement a with
  | .ok c => runCycle c s
  | .error e => rejected e a.write s

/-! ## The application context's own transactions (R108, R271, R272, R279) -/

/-- Why nothing but RD.IDENT may be issued yet: no BASE is bound (R271), or no probe has succeeded (R108,
R272). -/
def State.earlyBar (s : State) (ident : Bool) : Option Refusal :=
  if s.host.bound then
    if s.host.probed || ident then none else some .notProbed
  else some .notBound

/-- Whether an operation selects a slave while a short wait is owed (R279, D34). -/
def State.holdBreach (s : State) (i : Instr) : Bool :=
  match i with
  | .wrSs d => s.host.holdOwed && d != s.cfg.ssIdle
  | _ => false

/-- Why the application context may not issue an operation now. -/
def State.lineBar (s : State) (i : Instr) : Option Refusal :=
  match s.earlyBar (i == .rdIdent) with
  | some r => some r
  | none => if s.holdBreach i then some .deselectHold else none

/-- The application context has issued an operation: a deselecting WR.SS leaves a short wait owed (R279; which
writes deselect: log 16). -/
def State.noteIssued (s : State) (i : Instr) : State :=
  match i with
  | .wrSs d => s.setHost { s.host with holdOwed := s.host.holdOwed || d == s.cfg.ssIdle }
  | _ => s

/-- What a step has come to, then the rest. -/
def andThen (o : Out) (k : State → Out) : Out :=
  match o with
  | .next t => k t
  | .fault f => .fault f
  | .refused r => .refused r

/-- The application context issues an operation, which runs as `run`. -/
def appIssue (i : Instr) (s : State) (run : State → Out) : Out :=
  match s.lineBar i with
  | some r => .refused r
  | none => andThen (run s) fun t => .next (t.noteIssued i)

/-- The application context's transaction that selects no operation: as `rejected`, but the window is not
touched before BASE is bound and the board probed (R271, R108). -/
def lineError (e : DecodeError) (write : Bool) (s : State) : Out :=
  match e with
  | .unmappedOffset =>
    match s.earlyBar false with
    | some r => .refused r
    | none => rejected e write s
  | .unusedTick | .badWidth | .notThisBlock => rejected e write s

/-- A transaction line of the application context: not while the handler runs (R52), not from inside a
procedure (R51, R156). -/
def hostLine (c : Except DecodeError BusCycle) (write : Bool) (s : State) : Out :=
  if s.host.inHandler then .refused (.notEnabled .hostLine)
  else if s.host.app = .idle then
    match c with
    | .ok c =>
      match decode s.cfg.place.order c with
      | .ok i => appIssue i s (exec i)
      | .error e => lineError e write s
    | .error e => lineError e write s
  else .refused .reentered

/-! ## The transactions of host procedures -/

/-- The access a driver bound to `base` makes for an operation (R6, R41): it reaches the board where the two
agree. Where they do not, it runs whatever stands at its address: another address of the host (log 13), or, where
the driver's window overlaps the board's or takes in a tick address, another of the block's operations than the one
meant, also in a probe while PROBED is false. `State.lineBar` judges the operation meant (R108), not the one reached
(DESIGN CHOICE, unsafe, log 3). -/
def hostAccess (base : Addr) (i : Instr) (s : State) : Out :=
  runAccess (encodeAccess { s.cfg.place with base := base } i) s

/-- `x <- Rd(NAME)` in a host procedure (R6): the transaction, then the rest with the byte it returned. -/
def rd (i : Instr) (s : State) (k : Byte → State → Out) : Out :=
  andThen (appIssue i s (hostAccess s.host.base i)) fun t => k t.readData t

/-- `Wr(NAME, v)` in a host procedure (R6): the transaction, then the rest. -/
def wr (i : Instr) (s : State) (k : State → Out) : Out :=
  andThen (appIssue i s (hostAccess s.host.base i)) k

end Sys2Proof.Machine
end

