-- ==== Sys2Proof/Machine/Agents.lean ====
section
/-! DEFINITION. The steps that no transaction selects (30_encoding.md R66): the SPI engine (R140, R141),
the pin-edge detector (R177), the tick counter (R200), the dispatcher (R247, R249), and the interrupt
context's handler (R180). -/

namespace Sys2Proof.Machine

/-- The engine takes a byte to send: queued data first, else a dummy byte (R140). -/
def Device.launch (cfg : Params) (d : Device) : Device :=
  match d.txq with
  | b :: q => { d.popTx q with shiftTx := b, busy := true }
  | [] => { d with shiftTx := cfg.dummyTxByte, feed := d.feed - 1, busy := true }

/-- The received byte is dropped against DISCARD or queued; the exchange is over (R141). -/
def Device.complete (d : Device) (r : Byte) : Device :=
  if d.discard = 0 then { d.pushRx r with busy := false }
  else { d with discard := d.discard - 1, busy := false }

/-- ENG.LAUNCH (R140). -/
def engLaunch (s : State) : Out :=
  if s.dev.canLaunch s.cfg then .next (s.setDev (s.dev.launch s.cfg))
  else .refused (.notEnabled .engLaunch)

/-- ENG.COMPLETE(r) (R141): the slave was told SS and the byte sent, and answered `r`. -/
def engComplete (r : Byte) (s : State) : Out :=
  if s.dev.busy then
    .next { s.setDev (s.dev.complete r) with wire := s.wire ++ [⟨s.dev.ss, s.dev.shiftTx, r⟩] }
  else .refused (.notEnabled .engComplete)

/-- Toggle a pin's level (R177). -/
def Device.togglePin (d : Device) : Pin → Device
  | .cd => { d with pinCd := !d.pinCd }
  | .ext => { d with pinExt := !d.pinExt }

/-- PIN.CHANGE(p) (R177): the level toggles and, where the edge is captured, the latch bit sets. -/
def Device.pinChange (cfg : Params) (d : Device) (p : Pin) : Device :=
  if d.captures cfg then { d.togglePin p with fired := d.fired ||| pinMask cfg p } else d.togglePin p

/-- PIN.CHANGE(p) (R177): always enabled. -/
def pinChange (p : Pin) (s : State) : Out := .next (s.setDev (s.dev.pinChange s.cfg p))

/-- TICK.INC (R200): always enabled; the latch is not touched. -/
def tickInc (s : State) : Out := .next (s.setDev { s.dev with tick := s.dev.tick + 1 })

/-- IRQ.DISPATCH (R247). -/
def irqDispatch (s : State) : Out :=
  if s.dev.irq && s.host.dispatchable then .next s.takeInterrupt
  else .refused (.notEnabled .irqDispatch)

/-- A spurious dispatch (R249, D42): as IRQ.DISPATCH, whatever IRQ is. -/
def irqSpurious (s : State) : Out :=
  if s.host.dispatchable then .next s.takeInterrupt else .refused (.notEnabled .irqSpurious)

/-- The handler's next operation (R180): capture the latch, clear it, raise the signal and return. Its two
transactions go to `boardAddr` (R29). -/
def handlerStep (s : State) : Out :=
  match s.host.handler with
  | .idle => .refused (.notEnabled .handlerStep)
  | .readFired =>
    andThen (hostAccess s.host.ictx.boardAddr .rdIntFired s) fun t =>
      .next (t.setHost { t.host with
        ictx := { t.host.ictx with lastFired := t.readData }
        handler := .clearFired })
  | .clearFired =>
    andThen (hostAccess s.host.ictx.boardAddr (.wrIntFired 0x00) s) fun t =>
      .next (t.setHost { t.host with handler := .raiseSignal })
  | .raiseSignal =>
    .next (s.setHost (s.host.raise s.host.ictx.signalId)).leaveInterrupt

/-- The armed deadline passes (R228). -/
def deadlinePasses (s : State) : Out :=
  match s.host.timer.request with
  | some q =>
    if q.expired then .refused (.notEnabled .deadline)
    else .next (s.setHost { s.host with
      timer := { s.host.timer with request := some { q with expired := true } } })
  | none => .refused (.notEnabled .deadline)

/-- A signal is set from outside the channel. R182 names the handler as the one that raises `signalId` and does
not say whether another may; R228 speaks of signals supplied from outside. Here any signal, `signalId` included,
may be set at any time, also between the handler's operations (DESIGN CHOICE, log 17). -/
def raiseSignal (n : Nat) (s : State) : Out := .next (s.setHost (s.host.raise n))

end Sys2Proof.Machine
end

