-- ==== Sys2Proof/Machine/Calibration.lean ====
section
/-! DEFINITION. The calibration measurement state machine's arithmetic and transitions (44_timing.md R214
to R217). -/

namespace Sys2Proof.Machine

/-- CAL_TARGET_US (R4, R216). -/
def calTargetUs : Int := 10000

/-- CAL_SANITY_US (R4, R216). -/
def calSanityUs : Int := 1000000

/-- SHORT_WAIT_NS (R4, R217). -/
def shortWaitNs : Nat := 400

/-- `us(t0, t1)`: the elapsed microseconds between two samples, signed (R214). -/
def elapsedUs (t0 t1 : ClockSample) : Int :=
  ((t1.sec : Int) - (t0.sec : Int)) * 1000000 + ((t1.usec.val : Int) - (t0.usec.val : Int))

/-- `ceil(a / b)` of naturals. -/
def ceilDiv (a b : Nat) : Nat := (a + (b - 1)) / b

/-- `Derive(m, scale) = ceil(400 * scale / (1000 * m)) + 1` in exact arithmetic (R217). -/
def derive (m scale : Nat) : Nat := ceilDiv (shortWaitNs * scale) (1000 * m) + 1

/-- What a measurement of `m` microseconds decides (R216's transitions). -/
inductive CalVerdict
  | again (scale : Nat)
  | stop (iters : Nat) (c : CalCondition)
deriving DecidableEq, Repr

/-- The transitions of R216 from CAL_MEASURE(scale, first). -/
def judge (cfg : Params) (scale : Nat) (first : Bool) (m : Int) : CalVerdict :=
  if first ∧ calSanityUs < m then .stop cfg.calFallbackIters .calibrationUnreliable
  else if calTargetUs ≤ m then .stop (derive m.toNat scale) .ok
  else if cfg.calMaxScale < 2 * scale then .stop cfg.calFallbackIters .exhausted
  else .again (2 * scale)

/-- `WallClock()` (R214): the next stated sample, else a free one. -/
def State.wallClock (s : State) : ClockSample × State :=
  match s.env.clock with
  | t :: rest => (t, { s with env := { s.env with clock := rest } })
  | [] => (Config.wallClock s.draws, { s with draws := s.draws + 1 })

end Sys2Proof.Machine
end

