-- ==== Sys2Proof/Machine/Procedures.lean ====
section
/-! DEFINITION. The host procedures of 30_encoding.md R68 as small steps of the application context: each
step is one bus transaction, one clock sample, or one action beside the bus, so that every other agent can
step in between (R50, R52). -/

namespace Sys2Proof.Machine

/-- The application context goes on at `a`. -/
def State.goto (s : State) (a : AppState) : State := s.setHost { s.host with app := a }

/-- The procedure ends and reports `r`. -/
def State.finish (s : State) (r : Result) : State :=
  s.setHost { s.host with app := .idle, result := r }

/-- After a poll without progress (R154): spin again with the poll counted, or, where RETRY_BOUND polls
have been made, give up with the transfer incomplete after `copied` bytes (log 10). R154 gives a bound of 0 no
meaning: here the first poll without progress is made and ends the procedure, as with a bound of 1 (DESIGN
CHOICE, log 10). -/
def pollAgain (s : State) (polls copied : Nat) (again : Nat → AppState) : Out :=
  match s.cfg.retryBound with
  | none => .next (s.goto (again (polls + 1)))
  | some bound =>
    if bound ≤ polls + 1 then .next (s.finish (.incomplete copied))
    else .next (s.goto (again (polls + 1)))

/-! ## Binding, registration (R90, R187, R273, R276) -/

/-- IRQ_SELECTOR of a configured value; any other keeps the default (R90, U61). -/
def lineOf (dflt : IrqLine) : Option Nat → IrqLine
  | some 2 => .two
  | some 3 => .three
  | some 6 => .six
  | _ => dflt

/-- Initialization (R90, R271, R273): bind the base and the line, create the InterruptContext. A field of
BoardConfig that is unset or invalid takes the caller-supplied default (R31, R90), at every initialization,
whatever an earlier one bound; the parameters BASE and IRQ_SELECTOR (R35) are not written (log 3). The spec does not
say what a second initialization, at the same base or another, does to PROBED and VERSION: here it keeps both, so a
base never probed counts as probed (DESIGN CHOICE, unsafe, log 16). Nor does it say which context the registered pair
of R187 and R243 then holds: here REGISTERED is kept and the handler uses the context just created, its `boardAddr` and
`signalId` (DESIGN CHOICE, unsafe, log 21). Nor does it say whether the engine must be quiet: here it need not be
(DESIGN CHOICE, log 21). -/
def initStep (base : Option Addr) (sel : Option Nat) (sig : Nat) (s : State) : Out :=
  let b := base.getD s.cfg.defaultBase
  .next ((s.setHost { s.host with
    base := b
    irqLine := lineOf s.cfg.defaultIrqLine sel
    bound := true
    ictx := { boardAddr := b, signalId := sig, lastFired := 0 } }).finish .done)

/-- Destroy the BoardHandle (R276). The spec does not say what becomes of PROBED and VERSION: both are kept
(DESIGN CHOICE, log 16). Where no handle exists, which R80 does not speak of, the call completes and changes nothing
but `result` (DESIGN CHOICE, log 21). R276 says that no transfer may be in progress and not what happens if one is:
here only the application context must be free, and the engine goes on with what it has (DESIGN CHOICE, log 21). -/
def destroyStep (s : State) : Out :=
  .next ((s.setHost { s.host with bound := false }).finish .done)

/-- Register (true) or deregister (false) the handler (R187); the call is guarded by the probe (R108, R187: probe,
then register). Neither tests ARMED or an earlier registration, though R187 gives an order of the two pairs
(DESIGN CHOICE, log 21). -/
def registerStep (on : Bool) (s : State) : Out :=
  .next ((s.setHost { s.host with registered := on }).finish .done)

/-! ## Probe (R104) -/

/-- What the probe reports of a verdict; PROBED and VERSION are written on success only (R104). Where a repeated probe
fails after an earlier success, for which R108 has no rule, they stay, so arming and FIFO use go on completing (DESIGN
CHOICE, unsafe, log 21). -/
def State.probeDone (s : State) (v : ProbeVerdict) : State :=
  match v with
  | .found ver => (s.setHost { s.host with probed := true, version := ver }).finish (.version ver)
  | .unsupported ver => s.finish (.error (.unsupportedVersion ver))
  | .notFound => s.finish (.error .probeNotFound)

/-- One of the eight reads; after the eighth, the search (R104). -/
def probeStep (w : List Byte) (s : State) : Out :=
  rd .rdIdent s fun b t =>
    let w' := w ++ [b]
    if w'.length < 8 then .next (t.goto (.probe w')) else .next (t.probeDone (searchWindow w'))

/-! ## FIFO transfers (R150 to R153) -/

/-- `spi_read` (R150). -/
def spiReadStep (pc : ReadPc) (v : ReadVars) (s : State) : Out :=
  match pc with
  | .lenHi => wr (.wrLenHi (countHigh v.size)) s fun t => .next (t.goto (.spiRead .feed v))
  | .feed => wr (.wrTxFeed (countLow v.size)) s fun t => .next (t.goto (.spiRead .head v))
  | .head =>
    rd .rdRxHead s fun h t =>
      if v.left = 0 then .next (t.finish (.bytes v.buf))
      else .next (t.goto (.spiRead .poll { v with h := h }))
  | .poll =>
    rd .rdRxTail s fun tl t =>
      let n := min (occupancy v.h tl).toNat v.left
      if n = 0 then pollAgain t v.polls v.buf.length fun p => .spiRead .poll { v with polls := p }
      else .next (t.goto (.spiRead .copy { v with n := n, k := n, polls := 0 }))
  | .copy =>
    rd .rdFifoData s fun b t =>
      let v := { v with buf := v.buf ++ [b], k := v.k - 1 }
      if v.k = 0 then
        let v := { v with h := v.h + BitVec.ofNat 8 v.n, left := v.left - v.n }
        if v.left = 0 then .next (t.finish (.bytes v.buf)) else .next (t.goto (.spiRead .poll v))
      else .next (t.goto (.spiRead .copy v))

/-- `spi_read1` (R151). -/
def spiRead1Step (pc : Read1Pc) (s : State) : Out :=
  match pc with
  | .lenHi => wr (.wrLenHi 0x00) s fun t => .next (t.goto (.spiRead1 .feed))
  | .feed => wr (.wrTxFeed 0x01) s fun t => .next (t.goto (.spiRead1 .head))
  | .head => rd .rdRxHead s fun h t => .next (t.goto (.spiRead1 (.spin h 0)))
  | .spin h polls =>
    rd .rdRxTail s fun tl t =>
      if tl = h then pollAgain t polls 0 fun p => .spiRead1 (.spin h p)
      else .next (t.goto (.spiRead1 .data))
  | .data => rd .rdFifoData s fun b t => .next (t.finish (.byte b))

/-- `rx-discard-empty` in a STATUS byte, masked before it is tested (R285). -/
def rxDiscardEmpty (cfg : Params) (status : Byte) : Bool := status &&& cfg.stRxdEmptyMask != 0

/-- TX free space: depth less occupancy (R152, C7). Where the cursors read differ by more than FIFO_DEPTH, as bytes
read from an absent board or from another address may, R152 does not say what a negative free space is: here it
counts as 0, and the write polls again (DESIGN CHOICE, unsafe, log 22). -/
def txFree (cfg : Params) (t hd : Byte) : Nat := cfg.fifoDepth - (occupancy hd t).toNat

/-- `spi_write` (R152). -/
def spiWriteStep (pc : WritePc) (v : WriteVars) (s : State) : Out :=
  match pc with
  | .lenHi => wr (.wrLenHi (countHigh v.size)) s fun t => .next (t.goto (.spiWrite .discard v))
  | .discard => wr (.wrRxDiscard (countLow v.size)) s fun t => .next (t.goto (.spiWrite .tail v))
  | .tail =>
    rd .rdTxTail s fun tl t =>
      .next (t.goto (.spiWrite (if v.rest.isEmpty then .status else .poll) { v with t := tl }))
  | .poll =>
    rd .rdTxHead s fun hd t =>
      let n := min (txFree t.cfg v.t hd) v.rest.length
      if n = 0 then
        pollAgain t v.polls (v.size.toNat - v.rest.length) fun p => .spiWrite .poll { v with polls := p }
      else .next (t.goto (.spiWrite .push { v with n := n, k := n, polls := 0 }))
  | .push =>
    wr (.wrFifoData (v.rest.headD 0)) s fun t =>
      let v := { v with rest := v.rest.tail, k := v.k - 1 }
      if v.k = 0 then
        let v := { v with t := v.t + BitVec.ofNat 8 v.n }
        .next (t.goto (.spiWrite (if v.rest.isEmpty then .status else .poll) v))
      else .next (t.goto (.spiWrite .push v))
  | .status =>
    rd .rdStatus s fun st t =>
      if rxDiscardEmpty t.cfg st then .next (t.finish .done)
      else pollAgain t v.polls v.size.toNat fun p => .spiWrite .status { v with polls := p }

/-- `spi_write1` (R153). -/
def spiWrite1Step (pc : Write1Pc) (b : Byte) (s : State) : Out :=
  match pc with
  | .lenHi => wr (.wrLenHi 0x00) s fun t => .next (t.goto (.spiWrite1 .discard b))
  | .discard => wr (.wrRxDiscard 0x01) s fun t => .next (t.goto (.spiWrite1 .tail b))
  | .tail => rd .rdTxTail s fun tl t => .next (t.goto (.spiWrite1 (.spin tl 0) b))
  | .spin tl polls =>
    rd .rdTxHead s fun hd t =>
      if hd = tl then .next (t.goto (.spiWrite1 .data b))
      else pollAgain t polls 0 fun p => .spiWrite1 (.spin tl p) b
  | .data => wr (.wrFifoData b) s fun t => .next (t.goto (.spiWrite1 (.status 0) b))
  | .status polls =>
    rd .rdStatus s fun st t =>
      if rxDiscardEmpty t.cfg st then .next (t.finish .done)
      else pollAgain t polls 1 fun p => .spiWrite1 (.status p) b

/-! ## Interrupt channel (R178 to R182) -/

/-- `resetInterrupt` (R181): the snapshot first, then the clear; `lastFired` is not written. -/
def resetInterruptStep (snapshot : Option Byte) (s : State) : Out :=
  match snapshot with
  | none => .next (s.goto (.resetInterrupt (some s.host.ictx.lastFired)))
  | some m => wr (.wrIntFired 0x00) s fun t => .next (t.finish (.byte m))

/-- `Wait(signalId)` (R6, R182): not enabled until the signal is set; then cleared. -/
def waitStep (s : State) (k : State → Out) : Out :=
  if s.host.ictx.signalId ∈ s.host.signals then
    k (s.setHost (s.host.clear s.host.ictx.signalId))
  else .refused (.notEnabled .appStep)

/-! ## Timing (R205, R206, R216, R220, R228) -/

/-- The next of `readTicks`' three reads, HI, MID, LO; `k` gets the value after the third (R205). -/
def ticksStep (pc : TickPc) (s : State) (next : TickPc → AppState) (k : Tick → State → Out) : Out :=
  match pc with
  | .hi => rd .rdTickHi s fun hi t => .next (t.goto (next (.mid hi)))
  | .mid hi => rd .rdTickMid s fun mid t => .next (t.goto (next (.lo hi mid)))
  | .lo hi mid => rd .rdTickLo s fun lo t => k (tickValue hi mid lo) t

/-- `readTicks` (R205). -/
def readTicksStep (pc : TickPc) (s : State) : Out :=
  ticksStep pc s .readTicks fun v t => .next (t.finish (.ticks (v.zeroExtend 32)))

/-- `delay`'s test (R206): the modular difference, read as a signed 24-bit number, is not negative. -/
def delayOver (now deadline : Tick) : Bool := decide (0 ≤ sint24 (now - deadline))

/-- `delay(ticks)` (R206): the first reading gives the deadline; then poll until it has passed. -/
def delayStep (ticks : Nat) (deadline : Option Tick) (pc : TickPc) (s : State) : Out :=
  ticksStep pc s (.delay ticks deadline) fun v t =>
    match deadline with
    | none => .next (t.goto (.delay ticks (some (v + BitVec.ofNat 24 ticks)) .hi))
    | some dl => if delayOver v dl then .next (t.finish .done) else .next (t.goto (.delay ticks deadline .hi))

/-- `calibrate` ends (R216): `itersPer400ns` and CAL_DONE. -/
def State.calibrated (s : State) (iters : Nat) (c : CalCondition) : State :=
  (s.setHost { s.host with iters := some iters, cal := .done }).finish (.calibrated c)

/-- One step of a measurement of `calibrate` (R216, R219). -/
def calibrateStep (pc : CalPc) (s : State) : Out :=
  match pc with
  | .disablePreemption =>
    .next ((s.setHost { s.host with preemptOff := true }).goto (.calibrate .sampleBefore))
  | .sampleBefore => .next (s.wallClock.2.goto (.calibrate (.loop s.wallClock.1)))
  | .loop t0 => .next (s.goto (.calibrate (.sampleAfter t0)))
  | .sampleAfter t0 => .next (s.wallClock.2.goto (.calibrate (.enablePreemption t0 s.wallClock.1)))
  | .enablePreemption t0 t1 =>
    .next ((s.setHost { s.host with preemptOff := false }).goto (.calibrate (.decide (elapsedUs t0 t1))))
  | .decide m =>
    match s.host.cal with
    | .measure scale first =>
      match judge s.cfg scale first m with
      | .again scale' =>
        .next ((s.setHost { s.host with cal := .measure scale' false }).goto (.calibrate .disablePreemption))
      | .stop iters c => .next (s.calibrated iters c)
    | _ => .refused .alreadyCalibrated

/-- `shortWait` (R220): the loop has no effect on the board (R215) and pays the wait a deselect owes (R279);
refused before calibration. -/
def shortWaitStep (s : State) : Out :=
  match s.host.iters with
  | some _ => .next ((s.setHost { s.host with holdOwed := false }).finish .done)
  | none => .refused .uncalibratedWait

/-- `openTimer` (R228): a handle, or TimerUnavailable. Handles are numbered as they are obtained (log 12). -/
def openTimerStep (s : State) : Out :=
  if s.env.timerAvailable then
    let h := s.host.timer.next
    .next ((s.setHost { s.host with
      timer := { s.host.timer with handles := s.host.timer.handles ++ [h], next := h + 1 } }).finish (.handle h))
  else .next (s.finish (.error .timerUnavailable))

/-- `closeTimer(h)` (R228): release the handle and what was armed on it. The spec does not speak of a handle that
is not open: there the call completes and changes nothing (DESIGN CHOICE, log 12). -/
def closeTimerStep (h : Nat) (s : State) : Out :=
  .next ((s.setHost { s.host with timer := { s.host.timer with
    handles := s.host.timer.handles.filter (· != h)
    request := s.host.timer.request.filter (·.handle != h) } }).finish .done)

/-- `waitDeadline(h, us, sigs)` arms its request (R228). -/
def State.armTimer (s : State) (h us : Nat) : State :=
  s.setHost { s.host with timer := { s.host.timer with request := some { handle := h, us := us, expired := false } } }

/-- The request is over: passed, or aborted (R228). -/
def State.disarmTimer (s : State) : State :=
  s.setHost { s.host with timer := { s.host.timer with request := none } }

/-- The deadline armed on a handle has passed (R228). -/
def TimerState.passed (t : TimerState) (h : Nat) : Bool :=
  t.request.any fun q => q.handle == h && q.expired

/-- `waitDeadline` (R228): blocked until the deadline has passed or a signal of `sigs` is set; where both
have happened the spec does not say which is reported (free choice, log 12). -/
def waitDeadlineStep (h : Nat) (sigs : List Nat) (s : State) : Out :=
  let bySignal := sigs.any fun n => decide (n ∈ s.host.signals)
  let byTime := s.host.timer.passed h
  if bySignal && byTime then
    .next (s.drawn.disarmTimer.finish (.woken (Config.anyChoice s.draws)))
  else if bySignal then .next (s.disarmTimer.finish (.woken true))
  else if byTime then .next (s.disarmTimer.finish (.woken false))
  else .refused (.notEnabled .appStep)

/-! ## The application context -/

/-- The next step of the procedure the application context is in. -/
def procStep (s : State) : Out :=
  match s.host.app with
  | .idle => .refused (.notEnabled .appStep)
  | .init base sel sig => initStep base sel sig s
  | .destroy => destroyStep s
  | .probe w => probeStep w s
  | .register => registerStep true s
  | .deregister => registerStep false s
  | .arm => wr (.wrIntArmed 0xFF) s fun t => .next (t.finish .done)
  | .disarm => wr (.wrIntArmed 0x00) s fun t => .next (t.finish .done)
  | .resetInterrupt m => resetInterruptStep m s
  | .waitSignal => waitStep s fun t => .next (t.finish .done)
  | .consume => waitStep s fun t => .next (t.goto (.resetInterrupt none))
  | .pinState => rd .rdGpio s fun v t => .next (t.finish (.byte v))
  | .spiRead pc v => spiReadStep pc v s
  | .spiRead1 pc => spiRead1Step pc s
  | .spiWrite pc v => spiWriteStep pc v s
  | .spiWrite1 pc b => spiWrite1Step pc b s
  | .readTicks pc => readTicksStep pc s
  | .delay ticks deadline pc => delayStep ticks deadline pc s
  | .calibrate pc => calibrateStep pc s
  | .shortWait => shortWaitStep s
  | .select v => wr (.wrSs v) s fun t => .next (t.finish .done)
  | .deselect => wr (.wrSs s.cfg.ssIdle) s fun t => .next (t.goto .shortWait)
  | .openTimer => openTimerStep s
  | .closeTimer h => closeTimerStep h s
  | .waitDeadline h sigs => waitDeadlineStep h sigs s

/-- The application context's step: never while the handler runs (R52). -/
def appStep (s : State) : Out :=
  if s.host.inHandler then .refused (.notEnabled .appStep) else procStep s

/-! ## Calls -/

/-- Start a procedure that uses the board: not before it is bound (R271) and, `probe` aside, probed (R108,
R272, U60). -/
def boardCall (s : State) (probing : Bool) (a : AppState) : Out :=
  match s.earlyBar probing with
  | some r => .refused r
  | none => .next (s.goto a)

/-- Start a procedure that needs a probed board: every one but `probe`. -/
def probedCall (s : State) (a : AppState) : Out := boardCall s false a

/-- `calibrate`'s entry (R216): once per process run; without a timer, the fallback at once. -/
def callCalibrate (s : State) : Out :=
  if s.host.cal = .idle then
    if s.env.timerAvailable then
      .next ((s.setHost { s.host with cal := .measure s.cfg.calMinScale true }).goto
        (.calibrate .disablePreemption))
    else .next (s.calibrated s.cfg.calFallbackIters .timerUnavailable)
  else .refused .alreadyCalibrated

/-- `spi_read(buf, size)`: a single byte takes the fast path (R150, R151). -/
def readEntry (size : Count) : AppState :=
  if size = 1 then .spiRead1 .lenHi
  else .spiRead .lenHi
    { size := size, left := size.toNat, h := 0, n := 0, k := 0, polls := 0, buf := [] }

/-- `spi_write(buf, size)`: a single byte takes the fast path (R152, R153). -/
def writeEntry (buf : List Byte) : AppState :=
  match buf with
  | [b] => .spiWrite1 .lenHi b
  | _ => .spiWrite .lenHi
    { size := BitVec.ofNat 16 buf.length, rest := buf, t := 0, n := 0, k := 0, polls := 0 }

/-- The procedure a call starts, with the guards of its rule. The spec calls a failed probe fatal to the driver
(R108, R240) and has no rule for repeating one: here `probe` may be called again whatever an earlier one reported,
and a success then lifts the bar on every other procedure (DESIGN CHOICE, unsafe, log 21). -/
def enter (p : Call) (s : State) : Out :=
  match p with
  | .init base sel sig => .next (s.goto (.init base sel sig))
  | .destroy => .next (s.goto .destroy)
  | .probe => boardCall s true (.probe [])
  | .register => probedCall s .register
  | .deregister => .next (s.goto .deregister)
  | .arm => probedCall s .arm
  | .disarm => probedCall s .disarm
  | .resetInterrupt => probedCall s (.resetInterrupt none)
  | .waitSignal => .next (s.goto .waitSignal)
  | .consume => probedCall s .consume
  | .pinState => probedCall s .pinState
  | .spiRead size => probedCall s (readEntry size)
  | .spiRead1 => probedCall s (.spiRead1 .lenHi)
  | .spiWrite buf => if buf.length ≤ 65535 then probedCall s (writeEntry buf) else .refused .sizeRange
  | .spiWrite1 b => probedCall s (.spiWrite1 .lenHi b)
  | .readTicks => probedCall s (.readTicks .hi)
  | .delay ticks => if ticks < 2 ^ 23 then probedCall s (.delay ticks none .hi) else .refused .delayRange
  | .calibrate => callCalibrate s
  | .shortWait => if s.host.iters = none then .refused .uncalibratedWait else .next (s.goto .shortWait)
  | .select v => probedCall s (.select v)
  | .deselect => probedCall s .deselect
  | .openTimer => .next (s.goto .openTimer)
  | .closeTimer h => .next (s.goto (.closeTimer h))
  | .waitDeadline h us sigs =>
    if h ∈ s.host.timer.handles then .next ((s.armTimer h us).goto (.waitDeadline h sigs))
    else .refused .timerNotOpen

/-- A call (U60, R251): from the application context, one procedure at a time, not while the handler
runs. -/
def startCall (ctx : Context) (p : Call) (s : State) : Out :=
  if ctx = .interrupt then .refused .wrongContext
  else if s.host.inHandler then .refused (.notEnabled .call)
  else if s.host.app = .idle then enter p s
  else .refused .reentered

end Sys2Proof.Machine
end

