-- ==== Sys2Proof/Machine/Schedule.lean ====
section
/-! DEFINITION. One event of a run, and the free schedule where none is stated (00_scope.md R7, R35; 20_memory.md
R50). -/

namespace Sys2Proof.Machine

/-- One event. -/
def runEvent (e : Event) (s : State) : Out :=
  match e with
  | .bus c => hostLine (.ok c) c.sel.isWrite s
  | .access a => hostLine (decodeAccess s.placement a) a.write s
  | .engLaunch => engLaunch s
  | .engComplete r => engComplete r s
  | .pinChange p => pinChange p s
  | .tickInc => tickInc s
  | .irqDispatch => irqDispatch s
  | .irqSpurious => irqSpurious s
  | .handlerStep => handlerStep s
  | .call ctx p => startCall ctx p s
  | .appStep => appStep s
  | .deadline => deadlinePasses s
  | .signal n => raiseSignal n s

/-- The next event of an agent; where the engine completes, the slave's answer is free (R141). -/
def agentEvent (s : State) : Agent → Event
  | .engine =>
    if s.dev.busy then .engComplete (Config.slaveExchange s.draws s.dev.ss s.dev.shiftTx) else .engLaunch
  | .pin p => .pinChange p
  | .tick => .tickInc
  | .dispatcher => .irqDispatch
  | .spurious => .irqSpurious
  | .handler => .handlerStep
  | .app => .appStep
  | .timer => .deadline

/-- A step that no event states: the free schedule names an agent; an agent that is not enabled lets the
others go on (R7, R35; log 8). -/
def freeStep (s : State) : Out :=
  match runEvent (agentEvent s (Config.schedule s.draws)) s.drawn with
  | .refused (.notEnabled _) => .next s.drawn
  | o => o

/-- Take the agenda's next event; where there is none, the free schedule's. -/
def nextStep (s : State) : Out :=
  match s.agenda with
  | e :: rest => runEvent e { s with agenda := rest }
  | [] => freeStep s

end Sys2Proof.Machine
end

