-- ==== Sys2Proof/Machine/Step.lean ====
section
/-! DEFINITION. One step of the machine, and the placing of one transaction as its next step. -/

namespace Sys2Proof.Machine

/-- One step (20_memory.md R50): the next event of the run. -/
def step (s : State) : Host.Outcome State Fault Refusal := nextStep s

/-- The transaction a table word stands for on a board whose registers stand in `order`: the one that selects the
operation the decoder reads from the word. -/
def placedCycle (order : List RegName) (nbits w : Nat) : BusCycle :=
  match decodeTableWord nbits w with
  | some i => encode order i
  | none => cycleOfTableWord nbits w

/-- `s` with one transaction of the application context as its next step, the context free to issue it: in no
procedure and not interrupted (R52, R156), BASE bound and the board probed (R271, R108), no short wait owed
(R279). -/
def State.withFetchWord (s : State) (nbits w : Nat) : State :=
  { s with
    host := { s.host with handler := .idle, app := .idle, bound := true, probed := true, holdOwed := false }
    agenda := .bus (placedCycle s.cfg.place.order nbits w) :: s.agenda }

end Sys2Proof.Machine
end

