-- ==== Sys2Proof/Safety.lean ====
section
/-! DEFINITION. The terms in which claims about runs are made: the invariants of 10_state.md R37, a
quiescent state (70_reset_and_hazards.md R288), and runs of several events. -/

namespace Sys2Proof.Machine

/-- The receive FIFO agrees with its cursors (R17, R37). -/
def Device.rxInv (cfg : Params) (d : Device) : Prop :=
  (occupancy d.rxHead d.rxTail).toNat = d.rxq.length ∧ d.rxq.length ≤ cfg.fifoDepth

/-- The transmit FIFO agrees with its cursors (R18, R37). -/
def Device.txInv (cfg : Params) (d : Device) : Prop :=
  (occupancy d.txHead d.txTail).toNat = d.txq.length ∧ d.txq.length ≤ cfg.fifoDepth

/-- Only the two pins' bits of FIRED are ever set (R22, R37). -/
def Device.firedInv (cfg : Params) (d : Device) : Prop :=
  d.fired &&& ~~~(cfg.pinCdMask ||| cfg.pinExtMask) = 0

/-- ARMED is 0x00 or 0xFF (R23, R37). -/
def Device.armedInv (d : Device) : Prop := d.armed = 0x00 ∨ d.armed = 0xFF

/-- While a byte is in flight its reply has somewhere to go (R140's guard, kept until R141; R144). -/
def Device.sinkInv (cfg : Params) (d : Device) : Prop := d.busy = true → d.hasSink cfg = true

/-- The invariants of R37, with the in-flight byte's sink. -/
structure Device.Inv (cfg : Params) (d : Device) : Prop where
  rx : d.rxInv cfg
  tx : d.txInv cfg
  fired : d.firedInv cfg
  armed : d.armedInv
  sink : d.sinkInv cfg

/-- The machine's invariant: parameters inside R4's ranges, and R37 of the board. -/
structure State.Inv (s : State) : Prop where
  params : s.cfg.wf = true
  device : s.dev.Inv s.cfg

/-- A quiescent state (R288). -/
def State.quiescent (s : State) : Bool :=
  s.dev.quiet && !s.dev.tlatched && !s.host.inHandler

/-- The application context is free to issue a transaction of its own (R52, R156). -/
def State.ready (s : State) : Prop := s.host.handler = .idle ∧ s.host.app = .idle

/-- The driver and the interrupt context are bound to the address where the board stands (R35, R90, R29). -/
structure State.Attached (s : State) : Prop where
  params : s.cfg.wf = true
  base : s.host.base = s.cfg.place.base
  context : s.host.ictx.boardAddr = s.cfg.place.base

/-- The state in which the procedures of R68 are used (R271, R272): a board that is present, where the driver is
bound and has probed it, and a free application context. -/
structure State.Operational (s : State) : Prop where
  attached : s.Attached
  present : s.env.boardPresent = true
  ready : s.ready
  bound : s.host.bound = true
  probed : s.host.probed = true

/-- Run one list of events from `s`; nothing scheduled behind them. -/
def runEvents : List Event → State → Out
  | [], s => .next s
  | e :: rest, s =>
    match runEvent e s with
    | .next t => runEvents rest t
    | .fault f => .fault f
    | .refused r => .refused r

/-- The mirrored head of `spi_read` (R150, R32): between passes it is RX_HEAD; inside a pass of `n` bytes
with `k` still to copy it is `n - k` behind, and those `k` bytes are in the receive FIFO. -/
def State.ReadMirror (s : State) : Prop :=
  match s.host.app with
  | .spiRead .poll v => v.h = s.dev.rxHead
  | .spiRead .copy v =>
    1 ≤ v.k ∧ v.k ≤ v.n ∧ v.n ≤ v.left ∧ s.dev.rxHead = v.h + BitVec.ofNat 8 (v.n - v.k)
      ∧ v.k ≤ s.dev.rxq.length
  | _ => True

/-- The mirrored tail of `spi_write` (R152, R32): between passes it is TX_TAIL; inside a pass of `n` bytes with
`k` still to push it is `n - k` behind, and the transmit FIFO has room for those `k` bytes. -/
def State.WriteMirror (s : State) : Prop :=
  match s.host.app with
  | .spiWrite .poll v => v.t = s.dev.txTail
  | .spiWrite .push v =>
    1 ≤ v.k ∧ v.k ≤ v.n ∧ v.k ≤ v.rest.length ∧ s.dev.txTail = v.t + BitVec.ofNat 8 (v.n - v.k)
      ∧ s.dev.txq.length + v.k ≤ s.cfg.fifoDepth
  | _ => True

/-- What `spi_read` has so far of a transfer that began when the wire had carried `base` (R150, R143): the
replies since then are its buffer followed by the receive FIFO. -/
def State.ReadTrace (base : List Byte) (buf : List Byte) (s : State) : Prop :=
  s.dev.discard = 0 ∧ s.wire.map Exchange.rx = base ++ buf ++ s.dev.rxq

/-- The bytes pushed that the wire has not carried yet: the one in flight, then TXQ (R19, R18). -/
def Device.unsent (d : Device) : List Byte := (if d.busy then [d.shiftTx] else []) ++ d.txq

/-- Where a write procedure stands, in `spi_write`'s terms, with its size and the bytes still to push (R152,
R153). -/
def AppState.writing : AppState → Option (WritePc × Nat × List Byte)
  | .spiWrite pc v => some (pc, v.size.toNat, v.rest)
  | .spiWrite1 pc b =>
    match pc with
    | .lenHi => some (.lenHi, 1, [b])
    | .discard => some (.discard, 1, [b])
    | .tail => some (.tail, 1, [b])
    | .spin _ _ => some (.poll, 1, [b])
    | .data => some (.push, 1, [b])
    | .status _ => some (.status, 1, [])
  | _ => none

/-- A write procedure of the bytes `buf` is running that began when the wire had sent `base` and the receive FIFO
held `kept` (R152, R153): sent, unsent and still to push make `base` and then `buf`; before its WR.RX_DISCARD the
engine is quiet, after it DISCARD counts the replies to come. -/
def State.Writing (base kept buf : List Byte) (s : State) : Prop :=
  ∃ pc size rest, s.host.app.writing = some (pc, size, rest) ∧ size = buf.length ∧
    s.dev.feed = 0 ∧ s.dev.rxq = kept ∧
    s.wire.map Exchange.tx ++ s.dev.unsent ++ rest = base ++ buf ∧
    match pc with
    | .lenHi => rest = buf ∧ s.dev.unsent = [] ∧ s.dev.discard = 0
    | .discard => rest = buf ∧ s.dev.unsent = [] ∧ s.dev.discard = 0 ∧ s.dev.lenHi.toNat = buf.length / 256
    | .tail | .poll | .push => s.dev.discard.toNat = s.dev.unsent.length + rest.length
    | .status => rest = [] ∧ s.dev.discard.toNat = s.dev.unsent.length

/-- Where a read procedure stands, in `spi_read`'s terms, with its size, its buffer so far, and the bytes it still
wants (R150, R151). -/
def AppState.reading : AppState → Option (ReadPc × Nat × List Byte × Nat)
  | .spiRead .copy v => some (.copy, v.size.toNat, v.buf, v.left - (v.n - v.k))
  | .spiRead pc v => some (pc, v.size.toNat, v.buf, v.left)
  | .spiRead1 pc =>
    match pc with
    | .lenHi => some (.lenHi, 1, [], 1)
    | .feed => some (.feed, 1, [], 1)
    | .head => some (.head, 1, [], 1)
    | .spin _ _ => some (.poll, 1, [], 1)
    | .data => some (.copy, 1, [], 1)
  | _ => none

/-- A read procedure of `size` bytes is running that began when the wire had carried `base` (R150, R151): since then
the wire has carried dummy bytes, answered by its buffer and then the receive FIFO; before its WR.TX_FEED the engine
is quiet, after it FEED counts the dummy bytes to come. -/
def State.Reading (base : List Exchange) (size : Nat) (s : State) : Prop :=
  ∃ pc buf left, s.host.app.reading = some (pc, size, buf, left) ∧ buf.length + left = size ∧
    s.dev.txq = [] ∧ s.dev.discard = 0 ∧ (s.dev.busy = true → s.dev.shiftTx = s.cfg.dummyTxByte) ∧
    s.wire = base ++ (buf ++ s.dev.rxq).map (fun r => ⟨s.dev.ss, s.cfg.dummyTxByte, r⟩) ∧
    match pc with
    | .lenHi => buf = [] ∧ s.dev.quiet = true ∧ s.dev.rxq = []
    | .feed => buf = [] ∧ s.dev.quiet = true ∧ s.dev.rxq = [] ∧ s.dev.lenHi.toNat = size / 256
    | .head | .poll | .copy =>
      s.dev.feed.toNat + (if s.dev.busy then 1 else 0) + s.dev.rxq.length + buf.length = size

/-- The calibration result is positive, and there exactly when calibration is done (R30, R216). -/
def HostState.CalInv (h : HostState) : Prop :=
  (∀ n, h.iters = some n → 1 ≤ n) ∧ (h.cal = .done ↔ h.iters.isSome = true)

/-- The host's own rules: the calibration result, and an interrupt channel registered and served only after a
successful probe (R30, R108, R187). -/
structure HostState.Inv (h : HostState) : Prop where
  cal : h.CalInv
  registered : h.registered = true → h.probed = true
  handler : h.handler ≠ .idle → h.probed = true
  registering : h.app = .register → h.probed = true

/-- The sixteen reads of the window (R64). -/
def windowReads : List Instr :=
  [.rdStatus, .rdLenHi, .rdGpio, .rdRxHead, .rdRxTail, .rdTxHead, .rdTxTail, .rdRxDiscard, .rdTxFeed,
   .rdSpiFreq, .rdSs, .rdIntFired, .rdIntArmed, .rdFifoData, .rdIdent, .rdReserved]

/-- The sixteen writes of the window (R64). -/
def windowWrites (d : Byte) : List Instr :=
  [.wrStatus d, .wrLenHi d, .wrGpio d, .wrRxHead d, .wrRxTail d, .wrTxHead d, .wrTxTail d,
   .wrRxDiscard d, .wrTxFeed d, .wrSpiFreq d, .wrSs d, .wrIntFired d, .wrIntArmed d, .wrFifoData d,
   .wrIdent d, .wrReserved d]

/-- The calls that need a probed board (R108, R272): their procedure uses the board's registers or the tick port,
or registers the handler that does. -/
def usesBoard : Call → Bool
  | .register | .arm | .disarm | .resetInterrupt | .consume | .pinState | .spiRead _ | .spiRead1 | .spiWrite1 _
  | .readTicks | .select _ | .deselect => true
  | .spiWrite buf => decide (buf.length ≤ 65535)
  | .delay ticks => decide (ticks < 2 ^ 23)
  | .init _ _ _ | .destroy | .probe | .deregister | .waitSignal | .calibrate | .shortWait
  | .openTimer | .closeTimer _ | .waitDeadline _ _ _ => false

end Sys2Proof.Machine
end

