-- ==== Sys2Proof/Certificates/Slice0/Obligations.lean ====
section
/-! DEFINITION. The statements for the provers. What an absent board does is R58's, stated in
`AbsentBoardReadsAreDraws`; elsewhere the board is present, or the statement does not turn on it. Selectors written as
numbers are R64's, for the default REG_INDEX (log 9); every other statement holds for every REG_INDEX. -/

open Sys2Proof Sys2Proof.Machine

/-! ## Encoding and dispatch -/

/-- R60, R61, R64: a few selectors, written out, select the operation R64's table gives them. -/
def Obligations.WrittenOutSelectorsDecode : Prop :=
  ∀ d : Byte,
    decode defaultOrder ⟨.regfile 0b0000000#7, d⟩ = .ok .rdStatus ∧
    decode defaultOrder ⟨.regfile 0b1000100#7, d⟩ = .ok (.wrLenHi d) ∧
    decode defaultOrder ⟨.regfile 0b0111000#7, d⟩ = .ok .rdIdent ∧
    decode defaultOrder ⟨.regfile 0b1011100#7, d⟩ = .ok (.wrRxDiscard d) ∧
    decode defaultOrder ⟨.regfile 0b0110100#7, d⟩ = .ok .rdFifoData ∧
    decode defaultOrder ⟨.regfile 0b1110100#7, d⟩ = .ok (.wrFifoData d) ∧
    decode defaultOrder ⟨.regfile 0b1110000#7, d⟩ = .ok (.wrIntArmed d) ∧
    decode defaultOrder ⟨.tickport 0b010#3, d⟩ = .ok .rdTickLo

/-- R41, R60, R61, R81, D1: wherever a board is placed and whatever its REG_INDEX, every operation is what its own
bus access decodes to. -/
def Obligations.EveryOperationDecodesAtItsBusAddress : Prop :=
  ∀ p : Placement, p.wf = true → ∀ i : Instr,
    (encodeAccess p i).wf = true ∧ decodeAccess p (encodeAccess p i) = .ok (encode p.order i) ∧
      decode p.order (encode p.order i) = .ok i

/-- R41, R43, R81: an access that performs an operation is one byte wide, at that operation's address and
in its direction; a write is that operation's access, data and all. -/
def Obligations.OnlyItsBusAccessSelectsAnOperation : Prop :=
  ∀ (p : Placement) (a : Access) (c : BusCycle) (i : Instr), orderWf p.order = true →
    decodeAccess p a = .ok c → decode p.order c = .ok i →
      a.width = 1 ∧ (encodeAccess p i).addr = a.addr ∧ (encodeAccess p i).write = a.write ∧
        (a.write = true → encodeAccess p i = a)

/-- R65: whatever REG_INDEX, the selectors without an operation are those with a lane other than 00 and those with
t = 3. -/
def Obligations.SelectorsWithoutOperation : Prop :=
  (∀ (o : List RegName) (v : BitVec 7) (d : Byte),
    (v.extractLsb' 0 2 ≠ 0#2 ↔ decode o ⟨.regfile v, d⟩ = .error .unmappedOffset) ∧
    (v.extractLsb' 0 2 = 0#2 ↔ ∃ i, decode o ⟨.regfile v, d⟩ = .ok i)) ∧
  (∀ (o : List RegName) (v : BitVec 3) (d : Byte),
    (v.extractLsb' 0 2 = 3#2 ↔ decode o ⟨.tickport v, d⟩ = .error .unusedTick) ∧
    (v.extractLsb' 0 2 ≠ 3#2 ↔ ∃ i, decode o ⟨.tickport v, d⟩ = .ok i))

/-- R42: an access between registers, `off < 64` and `off[1:0] != 0`, of a driver that is bound and has probed, is
refused (UnmappedOffset). -/
def Obligations.AccessBetweenRegistersRefused : Prop :=
  ∀ (s : State) (a : Access) (rest : List Event),
    s.agenda = .access a :: rest → s.ready → s.host.bound = true → s.host.probed = true →
    s.env.boardPresent = true → a.width = 1 →
    (a.addr - s.cfg.place.base).toNat < 64 → (a.addr - s.cfg.place.base).extractLsb' 0 2 ≠ 0#2 →
      step s = .refused .unmappedOffset

/-- R43: an access of any width but one byte that reaches a byte of the window or of the tick port is
refused (BadWidth). That one of width 0 reaches the byte at its address is the model's reading (log 13), and that an
absent board refuses it too the model's choice (log 5). -/
def Obligations.WideAccessRefused : Prop :=
  ∀ (s : State) (a : Access) (rest : List Event) (k : Nat),
    let reached := a.addr + BitVec.ofNat 32 k
    s.agenda = .access a :: rest → s.ready → a.width ≠ 1 → k < max 1 a.width → k < 2 ^ 32 →
    ((reached - s.cfg.place.base).toNat < 64 ∨ reached = s.cfg.place.tickHi ∨
      reached = s.cfg.place.tickMid ∨ reached = s.cfg.place.tickLo) →
      step s = .refused .badWidth

/-- R50, R81: a step runs the agenda's next event; a transaction of a ready application context, by selector or by
address, runs exactly the operation it decodes to, once BASE is bound and the board probed (RD.IDENT before that too:
R108, R271) and unless it selects a slave while a short wait is owed (R279). What the step adds is the note that a
deselecting WR.SS leaves the wait owed. The agenda is the model's own (log 8). -/
def Obligations.StepRunsTheSelectedOperation : Prop :=
  (∀ (s : State) (e : Event) (rest : List Event),
    s.agenda = e :: rest → step s = runEvent e { s with agenda := rest }) ∧
  (∀ (s : State) (e : Event) (c : BusCycle) (rest : List Event) (i : Instr),
    s.agenda = e :: rest → (e = .bus c ∨ ∃ a, e = .access a ∧ decodeAccess s.cfg.place a = .ok c) →
    decode s.cfg.place.order c = .ok i →
    s.ready → s.host.bound = true → (s.host.probed = true ∨ i = .rdIdent) →
    (∀ d, i = .wrSs d → d = s.cfg.ssIdle ∨ s.host.holdOwed = false) →
      step s = andThen (exec i { s with agenda := rest }) fun t => .next { t with host := { t.host with
        holdOwed := t.host.holdOwed || i == .wrSs s.cfg.ssIdle } })

/-- A table word placed by `withFetchWord` is the operation the next step runs, the application context free to issue
it (log 11); as in every step, a deselecting WR.SS is noted. -/
def Obligations.PlacedWordRunsNext : Prop :=
  ∀ (s : State) (nbits w : Nat) (i : Instr), s.cfg.wf = true → decodeTableWord nbits w = some i →
    step (s.withFetchWord nbits w) =
      andThen
        (exec i { s with host := { s.host with
          handler := .idle, app := .idle, bound := true, probed := true, holdOwed := false } })
        fun t => .next { t with host := { t.host with holdOwed := i == .wrSs s.cfg.ssIdle } }

/-! ## Plain registers -/

/-- R84: RD.STATUS returns a draw with `rx-discard-empty` forced to `DISCARD = 0`, and changes nothing
else. The draw is free (log 7). -/
def Obligations.StatusReadShowsDiscardEmpty : Prop :=
  (∀ d, decode defaultOrder ⟨.regfile 0x00#7, d⟩ = .ok .rdStatus) ∧
  ∀ s : State, s.env.boardPresent = true →
    exec .rdStatus s = .next { s with
      readData :=
        if s.dev.discard = 0 then Config.anyByte s.draws ||| s.cfg.stRxdEmptyMask
        else Config.anyByte s.draws &&& ~~~s.cfg.stRxdEmptyMask
      draws := s.draws + 1 }

/-- R86: RD.GPIO returns the two pins' present levels at their masks over a draw, and changes nothing
else. The draw is free (log 7). -/
def Obligations.GpioReadShowsPinLevels : Prop :=
  (∀ d, decode defaultOrder ⟨.regfile 0x08#7, d⟩ = .ok .rdGpio) ∧
  ∀ s : State, s.env.boardPresent = true →
    exec .rdGpio s = .next { s with
      readData :=
        (Config.anyByte s.draws &&& ~~~(s.cfg.pinCdMask ||| s.cfg.pinExtMask))
          ||| (if s.dev.pinCd = true then s.cfg.pinCdMask else 0)
          ||| (if s.dev.pinExt = true then s.cfg.pinExtMask else 0)
      draws := s.draws + 1 }

/-- R85, R87: WR.LEN_HI and WR.SPI_FREQ store their byte and change nothing else while the engine is quiet,
and are refused while it is not. -/
def Obligations.QuietWritesOfLenHiAndSpiFreqStore : Prop :=
  (∀ d, decode defaultOrder ⟨.regfile 0x44#7, d⟩ = .ok (.wrLenHi d)) ∧
  (∀ d, decode defaultOrder ⟨.regfile 0x64#7, d⟩ = .ok (.wrSpiFreq d)) ∧
  ∀ (s : State) (d : Byte), s.env.boardPresent = true →
    (s.dev.quiet = true →
      exec (.wrLenHi d) s = .next { s with dev := { s.dev with lenHi := d } } ∧
      exec (.wrSpiFreq d) s = .next { s with dev := { s.dev with spiFreq := d } }) ∧
    (s.dev.quiet = false →
      exec (.wrLenHi d) s = .refused .countWriteWhileActive ∧
      exec (.wrSpiFreq d) s = .refused .configWriteWhileActive)

/-- R88, R279: WR.SS stores its byte while the engine is quiet, else it is refused; `select(v)` is that write;
`deselect()` is the write of SS_IDLE and then the short wait. After a write of SS_IDLE a write that selects a slave is
refused, from `select` and from a raw line, given by selector or by address, until a short wait has run. That the
obligation of R279 shows as a refusal is the model's choice (log 16). -/
def Obligations.SlaveSelectWrites : Prop :=
  (∀ d, decode defaultOrder ⟨.regfile 0x68#7, d⟩ = .ok (.wrSs d)) ∧
  (∀ (s : State) (d : Byte), s.env.boardPresent = true →
    (s.dev.quiet = true → exec (.wrSs d) s = .next { s with dev := { s.dev with ss := d } }) ∧
    (s.dev.quiet = false → exec (.wrSs d) s = .refused .configWriteWhileActive)) ∧
  (∀ (s : State) (v : Byte), s.Operational → s.dev.quiet = true →
    (s.host.holdOwed = false ∨ v = s.cfg.ssIdle) →
      runEvents [.call .application (.select v), .appStep] s = .next { s with
        dev := { s.dev with ss := v }
        host := { s.host with
          holdOwed := s.host.holdOwed || v == s.cfg.ssIdle, app := .idle, result := .done } }) ∧
  (∀ (s : State) (n : Nat), s.Operational → s.dev.quiet = true → s.host.iters = some n →
      runEvents [.call .application .deselect, .appStep, .appStep] s = .next { s with
        dev := { s.dev with ss := s.cfg.ssIdle }
        host := { s.host with holdOwed := false, app := .idle, result := .done } }) ∧
  (∀ (s : State) (v : Byte) (rest : List Event), s.Operational → s.host.holdOwed = true → v ≠ s.cfg.ssIdle →
    runEvents [.call .application (.select v), .appStep] s = .refused .deselectHold ∧
    ∀ (e : Event) (c : BusCycle),
      (e = .bus c ∨ ∃ a, e = .access a ∧ decodeAccess s.cfg.place a = .ok c) →
      decode s.cfg.place.order c = .ok (.wrSs v) → s.agenda = e :: rest →
        step s = .refused .deselectHold) ∧
  (∀ s t : State, step s = .next t → s.host.holdOwed = true → t.host.holdOwed = false →
    s.host.app = .shortWait ∧ s.host.handler = .idle ∧ t.host.app = .idle ∧ t.host.result = .done)

/-- R82: on a present board the six reads of write-only registers, at their selectors, are refused. -/
def Obligations.ReadsOfWriteOnlyRegistersRefused : Prop :=
  (∀ d,
    decode defaultOrder ⟨.regfile 0x04#7, d⟩ = .ok .rdLenHi ∧
    decode defaultOrder ⟨.regfile 0x1C#7, d⟩ = .ok .rdRxDiscard ∧
    decode defaultOrder ⟨.regfile 0x20#7, d⟩ = .ok .rdTxFeed ∧
    decode defaultOrder ⟨.regfile 0x24#7, d⟩ = .ok .rdSpiFreq ∧
    decode defaultOrder ⟨.regfile 0x28#7, d⟩ = .ok .rdSs ∧ decode defaultOrder ⟨.regfile 0x30#7, d⟩ = .ok .rdIntArmed) ∧
  ∀ s : State, s.env.boardPresent = true →
    exec .rdLenHi s = .refused (.readOfWriteOnly .lenHi) ∧
    exec .rdRxDiscard s = .refused (.readOfWriteOnly .rxDiscard) ∧
    exec .rdTxFeed s = .refused (.readOfWriteOnly .txFeed) ∧
    exec .rdSpiFreq s = .refused (.readOfWriteOnly .spiFreq) ∧
    exec .rdSs s = .refused (.readOfWriteOnly .ss) ∧
    exec .rdIntArmed s = .refused (.readOfWriteOnly .intArmed)

/-- R83: on a present board the seven writes of read-only registers, at their selectors, are refused. -/
def Obligations.WritesOfReadOnlyRegistersRefused : Prop :=
  (∀ d,
    decode defaultOrder ⟨.regfile 0x40#7, d⟩ = .ok (.wrStatus d) ∧
    decode defaultOrder ⟨.regfile 0x48#7, d⟩ = .ok (.wrGpio d) ∧
    decode defaultOrder ⟨.regfile 0x4C#7, d⟩ = .ok (.wrRxHead d) ∧
    decode defaultOrder ⟨.regfile 0x50#7, d⟩ = .ok (.wrRxTail d) ∧
    decode defaultOrder ⟨.regfile 0x54#7, d⟩ = .ok (.wrTxHead d) ∧
    decode defaultOrder ⟨.regfile 0x58#7, d⟩ = .ok (.wrTxTail d) ∧
    decode defaultOrder ⟨.regfile 0x78#7, d⟩ = .ok (.wrIdent d)) ∧
  ∀ (s : State) (d : Byte), s.env.boardPresent = true →
    exec (.wrStatus d) s = .refused (.writeOfReadOnly .status) ∧
    exec (.wrGpio d) s = .refused (.writeOfReadOnly .gpio) ∧
    exec (.wrRxHead d) s = .refused (.writeOfReadOnly .rxHead) ∧
    exec (.wrRxTail d) s = .refused (.writeOfReadOnly .rxTail) ∧
    exec (.wrTxHead d) s = .refused (.writeOfReadOnly .txHead) ∧
    exec (.wrTxTail d) s = .refused (.writeOfReadOnly .txTail) ∧
    exec (.wrIdent d) s = .refused (.writeOfReadOnly .ident)

/-- R89: on a present board both directions of RESERVED (selectors 0x3C and 0x7C) are refused. -/
def Obligations.ReservedRegisterRefused : Prop :=
  (∀ d, decode defaultOrder ⟨.regfile 0x3C#7, d⟩ = .ok .rdReserved) ∧
  (∀ d, decode defaultOrder ⟨.regfile 0x7C#7, d⟩ = .ok (.wrReserved d)) ∧
  ∀ (s : State) (d : Byte), s.env.boardPresent = true →
    exec .rdReserved s = .refused .reservedRegister ∧
    exec (.wrReserved d) s = .refused .reservedRegister

/-- R58: on an absent board every read of the window is a draw, every write has no effect, and no access
stops; the same for every selector of the window, operation or not. The draws are free (log 7). That the tick port
goes on answering its reads and refusing its writes, as on a present board, is the model's choice (log 5; C3 leaves
open where the counter stands); that the engine's and the pins' steps go on is its choice too (log 5) and is not stated
here. -/
def Obligations.AbsentBoardReadsAreDraws : Prop :=
  ∀ s : State, s.env.boardPresent = false →
    (∀ i ∈ windowReads,
      exec i s = .next { s with readData := Config.anyByte s.draws, draws := s.draws + 1 }) ∧
    (∀ d, ∀ i ∈ windowWrites d, exec i s = .next s) ∧
    (∀ (v : BitVec 7) (d : Byte),
      runCycle ⟨.regfile v, d⟩ s =
        if v.getLsbD 6 = true then .next s
        else .next { s with readData := Config.anyByte s.draws, draws := s.draws + 1 }) ∧
    let seen := if s.dev.tlatched = true then s.dev.tlatch else s.dev.tick
    exec .rdTickHi s = .next { s with
      dev := { s.dev with tlatch := s.dev.tick, tlatched := true }
      readData := s.dev.tick.extractLsb' 16 8 } ∧
    exec .rdTickMid s = .next { s with readData := seen.extractLsb' 8 8 } ∧
    exec .rdTickLo s = .next { s with
      dev := { s.dev with tlatched := false }, readData := seen.extractLsb' 0 8 } ∧
    ∀ d, exec (.wrTickHi d) s = .refused .tickWrite ∧ exec (.wrTickMid d) s = .refused .tickWrite ∧
      exec (.wrTickLo d) s = .refused .tickWrite ∧
      runCycle ⟨.tickport 0b011#3, d⟩ s = .refused .tickWrite ∧
      runCycle ⟨.tickport 0b111#3, d⟩ s = .refused .tickWrite

/-! ## Identification -/

/-- R101: RD.IDENT returns the identification byte at IDPTR, advances IDPTR modulo 8 and changes nothing
else. -/
def Obligations.IdentReadStepsRoundTheRom : Prop :=
  (∀ d, decode defaultOrder ⟨.regfile 0x38#7, d⟩ = .ok .rdIdent) ∧
  ∀ s : State, s.env.boardPresent = true →
    exec .rdIdent s = .next { s with
      dev := { s.dev with idptr := s.dev.idptr + 1 }
      readData :=
        [0xFF#8, 0x73#8, 0x70#8, 0x64#8, 0x72#8, s.cfg.fwMajor, s.cfg.fwMinor, s.cfg.fwPatch].getD
          s.dev.idptr.toNat 0 }

/-- R105: in a window of eight bytes at most one rotation holds the marker. -/
def Obligations.MarkerStandsAtOneRotation : Prop :=
  ∀ (w : List Byte) (r r' : Nat), w.length = 8 → r < 8 → r' < 8 →
    markerAt w r = true → markerAt w r' = true → r = r'

/-- R106: on the window that starts at any ROM position the search finds the marker and reports the
version, `UnsupportedVersion` where the major is not 1. -/
def Obligations.SearchFindsEveryRotation : Prop :=
  ∀ (cfg : Params) (p : BitVec 3),
    searchWindow ((List.range 8).map fun k => idrom cfg (p + BitVec.ofNat 3 k)) =
      if cfg.fwMajor = 1 then .found ⟨cfg.fwMajor, cfg.fwMinor, cfg.fwPatch⟩
      else .unsupported ⟨cfg.fwMajor, cfg.fwMinor, cfg.fwPatch⟩

/-- R104, R106, R108: `probe()` on a present board, from any IDPTR, reads eight bytes, leaves IDPTR where it
was, and reports the firmware version; PROBED and VERSION are written only for major 1. That it may be called again
after a failed one, and that one which fails after an earlier success leaves PROBED and VERSION as they were, is the
model's choice (log 21). -/
def Obligations.ProbeReportsTheFirmwareVersion : Prop :=
  ∀ s : State, s.Attached → s.env.boardPresent = true → s.ready → s.host.bound = true →
    let v : Version := ⟨s.cfg.fwMajor, s.cfg.fwMinor, s.cfg.fwPatch⟩
    let last := idrom s.cfg (s.dev.idptr - 1)
    runEvents (.call .application .probe :: List.replicate 8 .appStep) s =
      if s.cfg.fwMajor = 1 then .next { s with
        host := { s.host with probed := true, version := v, app := .idle, result := .version v }
        readData := last }
      else .next { s with
        host := { s.host with app := .idle, result := .error (.unsupportedVersion v) }
        readData := last }

/-! ## FIFO -/

/-- R122 to R125, R172: the four cursor reads and RD.INT_FIRED return their register and change nothing
else. -/
def Obligations.PlainReadsReturnTheirRegister : Prop :=
  (∀ d,
    decode defaultOrder ⟨.regfile 0x0C#7, d⟩ = .ok .rdRxHead ∧
    decode defaultOrder ⟨.regfile 0x10#7, d⟩ = .ok .rdRxTail ∧
    decode defaultOrder ⟨.regfile 0x14#7, d⟩ = .ok .rdTxHead ∧
    decode defaultOrder ⟨.regfile 0x18#7, d⟩ = .ok .rdTxTail ∧
    decode defaultOrder ⟨.regfile 0x2C#7, d⟩ = .ok .rdIntFired) ∧
  ∀ s : State, s.env.boardPresent = true →
    exec .rdRxHead s = .next { s with readData := s.dev.rxHead } ∧
    exec .rdRxTail s = .next { s with readData := s.dev.rxTail } ∧
    exec .rdTxHead s = .next { s with readData := s.dev.txHead } ∧
    exec .rdTxTail s = .next { s with readData := s.dev.txTail } ∧
    exec .rdIntFired s = .next { s with readData := s.dev.fired }

/-- R126, R127: while the engine is quiet a trigger write loads its counter with LEN_HI * 256 + d, keeps
LEN_HI and changes nothing else; while it is not quiet it is refused. -/
def Obligations.TriggerWritesLoadTheCount : Prop :=
  (∀ d, decode defaultOrder ⟨.regfile 0x5C#7, d⟩ = .ok (.wrRxDiscard d)) ∧
  (∀ d, decode defaultOrder ⟨.regfile 0x60#7, d⟩ = .ok (.wrTxFeed d)) ∧
  ∀ (s : State) (d : Byte), s.env.boardPresent = true →
    (s.dev.quiet = true →
      exec (.wrRxDiscard d) s = .next { s with
        dev := { s.dev with discard := BitVec.ofNat 16 (s.dev.lenHi.toNat * 256 + d.toNat) } } ∧
      exec (.wrTxFeed d) s = .next { s with
        dev := { s.dev with feed := BitVec.ofNat 16 (s.dev.lenHi.toNat * 256 + d.toNat) } }) ∧
    (s.dev.quiet = false →
      exec (.wrRxDiscard d) s = .refused .countWriteWhileActive ∧
      exec (.wrTxFeed d) s = .refused .countWriteWhileActive)

/-- R130: the engine is quiet exactly when FEED = 0, DISCARD = 0, TXQ is empty and no byte is in flight;
otherwise the five count and configuration writes are refused. -/
def Obligations.ActiveEngineRefusesCountAndConfigWrites : Prop :=
  (∀ d : Device, d.quiet = true ↔ d.feed = 0 ∧ d.discard = 0 ∧ d.txq.length = 0 ∧ d.busy = false) ∧
  ∀ (s : State) (d : Byte), s.env.boardPresent = true →
    ¬(s.dev.feed = 0 ∧ s.dev.discard = 0 ∧ s.dev.txq.length = 0 ∧ s.dev.busy = false) →
      exec (.wrLenHi d) s = .refused .countWriteWhileActive ∧
      exec (.wrRxDiscard d) s = .refused .countWriteWhileActive ∧
      exec (.wrTxFeed d) s = .refused .countWriteWhileActive ∧
      exec (.wrSpiFreq d) s = .refused .configWriteWhileActive ∧
      exec (.wrSs d) s = .refused .configWriteWhileActive

/-- R128: RD.FIFO_DATA returns and removes the head of RXQ, advances RX_HEAD modulo 256 and changes nothing
else; with RXQ empty it is refused. -/
def Obligations.FifoDataReadPopsTheReceiveFifo : Prop :=
  (∀ d, decode defaultOrder ⟨.regfile 0x34#7, d⟩ = .ok .rdFifoData) ∧
  (∀ (s : State) (b : Byte) (q : List Byte), s.env.boardPresent = true → s.dev.rxq = b :: q →
    exec .rdFifoData s = .next { s with
      dev := { s.dev with rxq := q, rxHead := s.dev.rxHead + 1 }, readData := b }) ∧
  (∀ s : State, s.env.boardPresent = true → s.dev.rxq = [] →
    exec .rdFifoData s = .refused .rxUnderflow)

/-- R129: WR.FIFO_DATA appends to TXQ, advances TX_TAIL modulo 256 and changes nothing else; with TXQ full it
is refused. -/
def Obligations.FifoDataWritePushesTheTransmitFifo : Prop :=
  (∀ d, decode defaultOrder ⟨.regfile 0x74#7, d⟩ = .ok (.wrFifoData d)) ∧
  (∀ (s : State) (d : Byte), s.env.boardPresent = true → s.dev.txq.length < s.cfg.fifoDepth →
    exec (.wrFifoData d) s = .next { s with
      dev := { s.dev with txq := s.dev.txq ++ [d], txTail := s.dev.txTail + 1 } }) ∧
  (∀ (s : State) (d : Byte), s.env.boardPresent = true → s.cfg.fifoDepth ≤ s.dev.txq.length →
    exec (.wrFifoData d) s = .refused .txOverflow)

/-- R140: ENG.LAUNCH, enabled when not busy with a source and a sink, takes the head of TXQ, else a dummy
byte, and becomes busy; where it is not enabled there is no such step: a refusal, the model's choice (log 8). -/
def Obligations.EngineLaunchTakesOneByte : Prop :=
  (∀ (s : State) (b : Byte) (q : List Byte), s.dev.busy = false → s.dev.txq = b :: q →
    (s.dev.discard ≠ 0 ∨ s.dev.rxq.length < s.cfg.fifoDepth) →
      runEvent .engLaunch s = .next { s with
        dev := { s.dev with txq := q, txHead := s.dev.txHead + 1, shiftTx := b, busy := true } }) ∧
  (∀ s : State, s.dev.busy = false → s.dev.txq = [] → s.dev.feed ≠ 0 →
    (s.dev.discard ≠ 0 ∨ s.dev.rxq.length < s.cfg.fifoDepth) →
      runEvent .engLaunch s = .next { s with
        dev := { s.dev with feed := s.dev.feed - 1, shiftTx := s.cfg.dummyTxByte, busy := true } }) ∧
  (∀ s : State,
    ¬(s.dev.busy = false ∧ (s.dev.txq ≠ [] ∨ s.dev.feed ≠ 0) ∧
      (s.dev.discard ≠ 0 ∨ s.dev.rxq.length < s.cfg.fifoDepth)) →
      runEvent .engLaunch s = .refused (.notEnabled .engLaunch))

/-- R141: ENG.COMPLETE(r), enabled while busy, drops `r` against DISCARD or queues it, and ends the
exchange. The wire's record is the model's own (log 4); where the engine is not busy there is no such step: a refusal,
the model's choice (log 8). -/
def Obligations.EngineCompleteDeliversOneByte : Prop :=
  (∀ (s : State) (r : Byte), s.dev.busy = true → s.dev.discard ≠ 0 →
    runEvent (.engComplete r) s = .next { s with
      dev := { s.dev with discard := s.dev.discard - 1, busy := false }
      wire := s.wire ++ [⟨s.dev.ss, s.dev.shiftTx, r⟩] }) ∧
  (∀ (s : State) (r : Byte), s.dev.busy = true → s.dev.discard = 0 →
    runEvent (.engComplete r) s = .next { s with
      dev := { s.dev with rxq := s.dev.rxq ++ [r], rxTail := s.dev.rxTail + 1, busy := false }
      wire := s.wire ++ [⟨s.dev.ss, s.dev.shiftTx, r⟩] }) ∧
  (∀ (s : State) (r : Byte), s.dev.busy = false →
    runEvent (.engComplete r) s = .refused (.notEnabled .engComplete))

/-- R143, R127, R140, R141: with FEED, room and nothing else pending, the engine clocks one dummy byte out for
each reply and queues the replies in order. `wire` is the model's own record of the SPI stream (log 4). -/
def Obligations.FeedQueuesRepliesInOrder : Prop :=
  ∀ (rs : List Byte) (s : State), s.dev.busy = false → s.dev.txq = [] → s.dev.discard = 0 →
    rs.length ≤ s.dev.feed.toNat → s.dev.rxq.length + rs.length ≤ s.cfg.fifoDepth →
      runEvents (rs.flatMap fun r => [.engLaunch, .engComplete r]) s = .next { s with
        dev := { s.dev with
          feed := s.dev.feed - BitVec.ofNat 16 rs.length
          rxq := s.dev.rxq ++ rs
          rxTail := s.dev.rxTail + BitVec.ofNat 8 rs.length
          shiftTx := if rs = [] then s.dev.shiftTx else s.cfg.dummyTxByte }
        wire := s.wire ++ rs.map fun r => ⟨s.dev.ss, s.cfg.dummyTxByte, r⟩ }

/-- R143, R126, R140, R141: with DISCARD covering the queued bytes, the engine sends them in order, drops every
reply and adds nothing to the receive FIFO. `wire` is the model's own record of the SPI stream (log 4). -/
def Obligations.DiscardedWriteSendsInOrder : Prop :=
  ∀ (xs : List (Byte × Byte)) (s : State), s.dev.busy = false → s.dev.txq = xs.map Prod.fst →
    xs.length ≤ s.dev.discard.toNat →
      runEvents (xs.flatMap fun x => [.engLaunch, .engComplete x.2]) s = .next { s with
        dev := { s.dev with
          txq := []
          txHead := s.dev.txHead + BitVec.ofNat 8 xs.length
          discard := s.dev.discard - BitVec.ofNat 16 xs.length
          shiftTx := (xs.map Prod.fst).getLastD s.dev.shiftTx }
        wire := s.wire ++ xs.map fun x => ⟨s.dev.ss, x.1, x.2⟩ }

/-- R151, R158: `spi_read1()` from a quiet engine with an empty receive FIFO returns the slave's answer to one
dummy byte and leaves the engine quiet. One schedule is fixed: the exchange falls between the head read and the
first spin. -/
def Obligations.SingleByteReadReturnsTheReply : Prop :=
  ∀ (s : State) (r : Byte), s.Operational → s.dev.quiet = true → s.dev.rxq = [] →
    s.dev.rxHead = s.dev.rxTail →
      runEvents [.call .application .spiRead1, .appStep, .appStep, .appStep, .engLaunch, .engComplete r,
          .appStep, .appStep] s = .next { s with
        dev := { s.dev with
          lenHi := 0, rxHead := s.dev.rxHead + 1, rxTail := s.dev.rxTail + 1
          shiftTx := s.cfg.dummyTxByte }
        host := { s.host with app := .idle, result := .byte r }
        readData := r
        wire := s.wire ++ [⟨s.dev.ss, s.cfg.dummyTxByte, r⟩] }

/-- R153, R158: `spi_write1(b)` from a quiet engine sends `b`, drops the reply and leaves the engine
quiet. One schedule is fixed: the exchange falls between the push and the first completion poll. -/
def Obligations.SingleByteWriteSendsTheByte : Prop :=
  ∀ (s : State) (b r : Byte), s.Operational → s.dev.quiet = true → s.dev.txHead = s.dev.txTail →
      runEvents [.call .application (.spiWrite1 b), .appStep, .appStep, .appStep, .appStep, .appStep,
          .engLaunch, .engComplete r, .appStep] s = .next { s with
        dev := { s.dev with
          lenHi := 0, txHead := s.dev.txHead + 1, txTail := s.dev.txTail + 1, shiftTx := b }
        host := { s.host with app := .idle, result := .done }
        readData := Config.anyByte s.draws ||| s.cfg.stRxdEmptyMask
        draws := s.draws + 1
        wire := s.wire ++ [⟨s.dev.ss, b, r⟩] }

/-- R152, R153, R158, R63, R280: called on a quiet engine, a write procedure declares its size in DISCARD and pushes its
buffer's bytes in order: every step of any agent keeps "sent, unsent and still to push are the buffer" and the count of
the replies to come; at its return the slave has been sent the buffer in order, the engine is quiet and the receive FIFO
is as it was. It returns only at a poll that finds DISCARD = 0, and a completion poll that finds it so does return.
`wire` is the model's own record of the SPI stream (log 4); a transfer is given up only where RETRY_BOUND is set (R281,
log 10). -/
def Obligations.WritesSendTheirBufferInOrder : Prop :=
  (∀ (s : State) (buf : List Byte), s.Operational → s.dev.quiet = true → buf.length ≤ 65535 →
    ∃ t, runEvent (.call .application (.spiWrite buf)) s = .next t ∧
      t.Writing (s.wire.map Exchange.tx) s.dev.rxq buf ∧ t.WriteMirror) ∧
  (∀ (s : State) (b : Byte), s.Operational → s.dev.quiet = true →
    ∃ t, runEvent (.call .application (.spiWrite1 b)) s = .next t ∧
      t.Writing (s.wire.map Exchange.tx) s.dev.rxq [b] ∧ t.WriteMirror) ∧
  (∀ (s : State) (base kept buf : List Byte) (rest : List Event), s.agenda = .appStep :: rest → s.Attached →
    s.env.boardPresent = true → s.host.bound = true → s.host.probed = true → s.host.handler = .idle →
    s.Writing base kept buf → ((∃ v, s.host.app = .spiWrite .discard v) ∨ (∃ b, s.host.app = .spiWrite1 .discard b)) →
      ∃ t, step s = .next t ∧ t.dev.discard.toNat = buf.length) ∧
  (∀ (s t : State) (base kept buf : List Byte), s.Attached → s.env.boardPresent = true → s.WriteMirror →
    s.Writing base kept buf → step s = .next t →
      t.Writing base kept buf ∨
      (t.host.app = .idle ∧ t.host.result = .done ∧ t.wire.map Exchange.tx = base ++ buf ∧
        t.dev.quiet = true ∧ t.dev.rxq = kept) ∨
      (t.host.app = .idle ∧ s.cfg.retryBound ≠ none ∧ ∃ n, t.host.result = .incomplete n)) ∧
  (∀ (s t : State) (rest : List Event), s.agenda = .appStep :: rest → s.Attached → s.env.boardPresent = true →
    ((∃ pc v, s.host.app = .spiWrite pc v) ∨ (∃ pc b, s.host.app = .spiWrite1 pc b)) →
    step s = .next t → t.host.app = .idle → t.host.result = .done →
      s.dev.discard = 0 ∧ t.dev = s.dev) ∧
  (∀ (s : State) (rest : List Event), s.agenda = .appStep :: rest → s.Attached → s.env.boardPresent = true →
    s.host.bound = true → s.host.probed = true → s.host.handler = .idle → s.dev.discard = 0 →
    ((∃ v, s.host.app = .spiWrite .status v) ∨ (∃ n b, s.host.app = .spiWrite1 (.status n) b)) →
      step s = .next { s with
        agenda := rest
        host := { s.host with app := .idle, result := .done }
        readData := Config.anyByte s.draws ||| s.cfg.stRxdEmptyMask
        draws := s.draws + 1 })

/-- R150, R152: while `spi_read` runs, every step of any agent keeps its mirrored head in step with RX_HEAD, and while
`spi_write` runs its mirrored tail in step with TX_TAIL and its pass within the free space; so a copy never meets an
empty receive FIFO and a push never meets a full transmit FIFO. -/
def Obligations.MirroredCursorsFollowTheHardware : Prop :=
  (∀ s t : State, s.Inv → s.Attached → s.env.boardPresent = true → s.ReadMirror → step s = .next t →
    t.ReadMirror) ∧
  (∀ s t : State, s.Inv → s.Attached → s.env.boardPresent = true → s.WriteMirror → step s = .next t →
    t.WriteMirror) ∧
  (∀ (s : State) (v : ReadVars) (rest : List Event), s.agenda = .appStep :: rest → s.ReadMirror →
    s.host.app = .spiRead .copy v → step s ≠ .refused .rxUnderflow) ∧
  (∀ (s : State) (v : WriteVars) (rest : List Event), s.agenda = .appStep :: rest → s.WriteMirror →
    s.host.app = .spiWrite .push v → step s ≠ .refused .txOverflow)

/-- R150, R151, R155, R158, R63, R143, R144: `spi_read`'s buffer is the slave's replies in their order: every step of
any agent keeps "the replies since the start are the buffer, then the receive FIFO", up to the return. Called on a quiet
engine with an empty receive FIFO, either read procedure loads FEED with its size, has that many dummy bytes sent and
returns their replies, exactly `size` bytes, in order, with the engine quiet and the receive FIFO empty. `wire` is the
model's own record of the SPI stream (log 4); a transfer is given up only where RETRY_BOUND is set (R281, log 10). -/
def Obligations.ReadBufferIsTheRepliesInOrder : Prop :=
  (∀ (s : State) (size : Count), s.Operational → s.dev.quiet = true → s.dev.rxq = [] →
    ∃ t, runEvent (.call .application (.spiRead size)) s = .next t ∧ t.Reading s.wire size.toNat ∧ t.ReadMirror) ∧
  (∀ s : State, s.Operational → s.dev.quiet = true → s.dev.rxq = [] →
    ∃ t, runEvent (.call .application .spiRead1) s = .next t ∧ t.Reading s.wire 1 ∧ t.ReadMirror) ∧
  (∀ (s : State) (base : List Exchange) (size : Nat) (rest : List Event), s.agenda = .appStep :: rest →
    s.Attached → s.env.boardPresent = true → s.host.bound = true → s.host.probed = true → s.host.handler = .idle →
    s.Reading base size → ((∃ v, s.host.app = .spiRead .feed v) ∨ s.host.app = .spiRead1 .feed) →
      ∃ t, step s = .next t ∧ t.dev.feed.toNat = size) ∧
  (∀ (s t : State) (base : List Exchange) (size : Nat), s.Attached → s.env.boardPresent = true → s.ReadMirror →
    s.Reading base size → step s = .next t →
      t.Reading base size ∨
      (t.host.app = .idle ∧ t.dev.quiet = true ∧ t.dev.rxq = [] ∧ ∃ buf : List Byte, buf.length = size ∧
        t.wire = base ++ buf.map (fun r => ⟨t.dev.ss, t.cfg.dummyTxByte, r⟩) ∧
        (t.host.result = .bytes buf ∨ ∃ b, buf = [b] ∧ t.host.result = .byte b)) ∨
      (t.host.app = .idle ∧ s.cfg.retryBound ≠ none ∧ ∃ n, t.host.result = .incomplete n)) ∧
  ∀ (s t : State) (base : List Byte) (pc : ReadPc) (v : ReadVars), s.Attached → s.env.boardPresent = true →
    s.host.app = .spiRead pc v → s.ReadTrace base v.buf → step s = .next t →
      (∃ pc' v', t.host.app = .spiRead pc' v' ∧ t.ReadTrace base v'.buf) ∨
      (t.host.app = .idle ∧ ∃ buf, t.host.result = .bytes buf ∧ t.ReadTrace base buf) ∨
      (t.host.app = .idle ∧ s.cfg.retryBound ≠ none ∧ ∃ n, t.host.result = .incomplete n)

/-! ## Interrupt channel -/

/-- R173, R24: WR.INT_FIRED clears the latch whatever the data, so IRQ is 0; nothing else changes. -/
def Obligations.IntFiredWriteClearsTheLatch : Prop :=
  (∀ d, decode defaultOrder ⟨.regfile 0x6C#7, d⟩ = .ok (.wrIntFired d)) ∧
  ∀ (s : State) (d : Byte), s.env.boardPresent = true →
    exec (.wrIntFired d) s = .next { s with dev := { s.dev with fired := 0 } } ∧
    ({ s.dev with fired := 0 } : Device).irq = false

/-- R174, R176, R24: WR.INT_ARMED stores 0x00 or 0xFF, keeps FIRED and changes nothing else; IRQ is then
`FIRED & ARMED != 0`; any other byte is refused. -/
def Obligations.IntArmedWriteStoresLegalValues : Prop :=
  (∀ d, decode defaultOrder ⟨.regfile 0x70#7, d⟩ = .ok (.wrIntArmed d)) ∧
  ∀ (s : State) (d : Byte), s.env.boardPresent = true →
    ((d = 0x00 ∨ d = 0xFF) →
      exec (.wrIntArmed d) s = .next { s with dev := { s.dev with armed := d } } ∧
      (({ s.dev with armed := d } : Device).irq = true ↔ s.dev.fired &&& d ≠ 0)) ∧
    (¬(d = 0x00 ∨ d = 0xFF) → exec (.wrIntArmed d) s = .refused .armedValueReserved)

/-- R177: PIN.CHANGE(p) toggles the pin and, armed or with LATCH_WHEN_DISARMED, sets its latch bit; nothing
else changes. -/
def Obligations.PinChangeSetsTheLatch : Prop :=
  ∀ s : State,
    let captured := s.dev.armed = 0xFF ∨ s.cfg.latchWhenDisarmed = true
    (captured →
      runEvent (.pinChange .cd) s = .next { s with
        dev := { s.dev with pinCd := !s.dev.pinCd, fired := s.dev.fired ||| s.cfg.pinCdMask } } ∧
      runEvent (.pinChange .ext) s = .next { s with
        dev := { s.dev with pinExt := !s.dev.pinExt, fired := s.dev.fired ||| s.cfg.pinExtMask } }) ∧
    (¬captured →
      runEvent (.pinChange .cd) s = .next { s with dev := { s.dev with pinCd := !s.dev.pinCd } } ∧
      runEvent (.pinChange .ext) s = .next { s with dev := { s.dev with pinExt := !s.dev.pinExt } })

/-- R247: IRQ.DISPATCH starts the handler and changes nothing of the board; it needs IRQ, a registered
handler, no handler running and preemption on; without them it is a step not enabled, a refusal (the model's choice,
log 8). That a dispatch may come without IRQ is the model's choice too (log 17; R249 and D42 say that a model may let
it). -/
def Obligations.DispatchStartsTheHandler : Prop :=
  ∀ s : State,
    let free := s.host.registered = true ∧ s.host.handler = .idle ∧ s.host.preemptOff = false
    (s.dev.irq = true ∧ free →
      runEvent .irqDispatch s = .next { s with host := { s.host with handler := .readFired } }) ∧
    (¬(s.dev.irq = true ∧ free) → runEvent .irqDispatch s = .refused (.notEnabled .irqDispatch)) ∧
    (free →
      runEvent .irqSpurious s = .next { s with host := { s.host with handler := .readFired } })

/-- R180, R248: from a dispatch, the handler's three operations capture the latch into `lastFired`, clear it,
raise the wake signal and return; nothing else changes. -/
def Obligations.HandlerCapturesClearsAndSignals : Prop :=
  ∀ s : State, s.Attached → s.env.boardPresent = true → s.host.handler = .readFired →
    runEvents [.handlerStep, .handlerStep, .handlerStep] s = .next { s with
      dev := { s.dev with fired := 0 }
      host := { s.host with
        ictx := { s.host.ictx with lastFired := s.dev.fired }
        signals :=
          if s.host.ictx.signalId ∈ s.host.signals then s.host.signals
          else s.host.signals ++ [s.host.ictx.signalId]
        handler := .idle }
      readData := s.dev.fired }

/-- R183 (a): a pin change between the handler's read and its clear is erased unread. -/
def Obligations.EdgeBetweenReadAndClearIsLost : Prop :=
  ∀ (s : State) (p : Pin), s.Attached → s.env.boardPresent = true → s.host.handler = .readFired →
    ∃ t, runEvents [.handlerStep, .pinChange p, .handlerStep, .handlerStep] s = .next t ∧
      t.host.ictx.lastFired = s.dev.fired ∧ t.dev.fired = 0 ∧ t.dev.irq = false ∧
      t.host.handler = .idle ∧
      (p = .cd → t.dev.pinCd = !s.dev.pinCd) ∧ (p = .ext → t.dev.pinExt = !s.dev.pinExt)

/-- R181, R182, R6: `resetInterrupt()` returns the snapshot, clears the latch, does not write `lastFired` and changes
nothing else; `Wait` returns only with the signal set, clears it and changes nothing else; one turn of the consumer's
loop is the one after the other. That a blocked step answers a refusal is the model's choice (log 8). -/
def Obligations.ConsumerWaitsThenTakesTheSnapshot : Prop :=
  (∀ s : State, s.Operational →
    runEvents [.call .application .resetInterrupt, .appStep, .appStep] s = .next { s with
      dev := { s.dev with fired := 0 }
      host := { s.host with app := .idle, result := .byte s.host.ictx.lastFired } }) ∧
  (∀ s : State, s.ready → s.host.ictx.signalId ∈ s.host.signals →
    runEvents [.call .application .waitSignal, .appStep] s = .next { s with host := { s.host with
      signals := s.host.signals.filter (· != s.host.ictx.signalId), app := .idle, result := .done } }) ∧
  (∀ s : State, s.ready → s.host.ictx.signalId ∉ s.host.signals →
    runEvents [.call .application .waitSignal, .appStep] s = .refused (.notEnabled .appStep)) ∧
  (∀ s : State, s.Operational → s.host.ictx.signalId ∈ s.host.signals →
    runEvents [.call .application .consume, .appStep, .appStep, .appStep] s = .next { s with
      dev := { s.dev with fired := 0 }
      host := { s.host with
        signals := s.host.signals.filter (· != s.host.ictx.signalId)
        app := .idle, result := .byte s.host.ictx.lastFired } })

/-- R52, R53, R248: while the handler runs the application context takes no step and no second handler
starts. That a step which is not enabled answers a refusal is the model's choice (log 8). -/
def Obligations.HandlerExcludesTheApplication : Prop :=
  ∀ (s : State) (rest : List Event), s.host.handler ≠ .idle →
    (∀ c, s.agenda = .bus c :: rest → step s = .refused (.notEnabled .hostLine)) ∧
    (∀ a, s.agenda = .access a :: rest → step s = .refused (.notEnabled .hostLine)) ∧
    (s.agenda = .appStep :: rest → step s = .refused (.notEnabled .appStep)) ∧
    (∀ p, s.agenda = .call .application p :: rest → step s = .refused (.notEnabled .call)) ∧
    (s.agenda = .irqDispatch :: rest → step s = .refused (.notEnabled .irqDispatch)) ∧
    (s.agenda = .irqSpurious :: rest → step s = .refused (.notEnabled .irqSpurious))

/-- R29, R180: a step that changes `lastFired` is the handler's first operation, which stores the byte it read, FIRED
as it stands on a board the handler reaches; or it is the initialization that creates the context, which stores 0. -/
def Obligations.LastFiredChangesOnlyByCaptureOrCreation : Prop :=
  ∀ s t : State, step s = .next t → t.host.ictx.lastFired ≠ s.host.ictx.lastFired →
    (s.host.handler = .readFired ∧ t.host.handler = .clearFired ∧ t.host.ictx.lastFired = t.readData ∧
      (s.Attached → s.env.boardPresent = true → t.host.ictx.lastFired = s.dev.fired)) ∨
    ((∃ b n g, s.host.app = .init b n g) ∧ s.host.handler = .idle ∧ t.host.app = .idle ∧
      t.host.ictx.lastFired = 0)

/-! ## Timing -/

/-- R201 to R203: on a present board RD.TICK_HI latches and returns bits 23:16; RD.TICK_MID returns bits 15:8 of the
latch, live where not latched; RD.TICK_LO returns bits 7:0 likewise and unlatches; nothing else changes. An absent
board's tick port is in `AbsentBoardReadsAreDraws` (log 5). -/
def Obligations.TickReadsLatchAndUnlatch : Prop :=
  (∀ d, decode defaultOrder ⟨.tickport 0x0#3, d⟩ = .ok .rdTickHi) ∧
  (∀ d, decode defaultOrder ⟨.tickport 0x1#3, d⟩ = .ok .rdTickMid) ∧
  (∀ d, decode defaultOrder ⟨.tickport 0x2#3, d⟩ = .ok .rdTickLo) ∧
  ∀ s : State, s.env.boardPresent = true →
    let seen := if s.dev.tlatched = true then s.dev.tlatch else s.dev.tick
    exec .rdTickHi s = .next { s with
      dev := { s.dev with tlatch := s.dev.tick, tlatched := true }
      readData := s.dev.tick.extractLsb' 16 8 } ∧
    exec .rdTickMid s = .next { s with readData := seen.extractLsb' 8 8 } ∧
    exec .rdTickLo s = .next { s with
      dev := { s.dev with tlatched := false }, readData := seen.extractLsb' 0 8 }

/-- R204: on a present board every write of the tick port is refused, and so is a selector with t = 3. An absent
board's tick port is in `AbsentBoardReadsAreDraws` (log 5). -/
def Obligations.TickPortWritesRefused : Prop :=
  (∀ d,
    decode defaultOrder ⟨.tickport 0x4#3, d⟩ = .ok (.wrTickHi d) ∧
    decode defaultOrder ⟨.tickport 0x5#3, d⟩ = .ok (.wrTickMid d) ∧
    decode defaultOrder ⟨.tickport 0x6#3, d⟩ = .ok (.wrTickLo d)) ∧
  ∀ (s : State) (d : Byte), s.env.boardPresent = true →
    exec (.wrTickHi d) s = .refused .tickWrite ∧
    exec (.wrTickMid d) s = .refused .tickWrite ∧
    exec (.wrTickLo d) s = .refused .tickWrite ∧
    runCycle ⟨.tickport 0b011#3, d⟩ s = .refused .tickWrite ∧
    runCycle ⟨.tickport 0b111#3, d⟩ s = .refused .tickWrite

/-- R200, R28: TICK.INC adds 1 modulo 2^24 and changes nothing else; no step of any agent changes TICK in
another way. -/
def Obligations.TickCounterOnlyCounts : Prop :=
  (∀ s : State, runEvent .tickInc s = .next { s with
    dev := { s.dev with tick := BitVec.ofNat 24 (s.dev.tick.toNat + 1) } }) ∧
  (∀ s t : State, step s = .next t → t.dev.tick = s.dev.tick ∨ t.dev.tick = s.dev.tick + 1)

/-- R205: `readTicks()` on a present board returns the count at the step of its HI read, whatever the counter does
meanwhile, and leaves the latch clear. -/
def Obligations.ReadTicksReturnsOneInstant : Prop :=
  ∀ (s : State) (n m : Nat), s.Operational →
    ∃ t, runEvents ([.call .application .readTicks, .appStep] ++ List.replicate n .tickInc ++ [.appStep]
        ++ List.replicate m .tickInc ++ [.appStep]) s = .next t ∧
      t.host.app = .idle ∧ t.host.result = .ticks (s.dev.tick.zeroExtend 32) ∧
      t.dev.tlatched = false ∧ t.dev.tick = s.dev.tick + BitVec.ofNat 24 (n + m)

/-- R206: `delay`'s test passes exactly when the ticks elapsed since `start`, modulo 2^24, are at least `ticks`
and below `ticks + 2^23`. The first of `delay`'s readings sets the deadline `start + ticks`; each later one ends the
procedure where it passes the test and is followed by another where it does not; and no step of any agent ends it or
moves its deadline in another way. -/
def Obligations.DelayEndsInItsWindow : Prop :=
  (∀ (start now : Tick) (ticks : Nat), ticks < 2 ^ 23 →
    (delayOver now (start + BitVec.ofNat 24 ticks) = true ↔
      ticks ≤ (now - start).toNat ∧ (now - start).toNat < ticks + 2 ^ 23)) ∧
  (∀ (s : State) (ticks n m : Nat), s.Operational → ticks < 2 ^ 23 →
    ∃ t, runEvents ([.call .application (.delay ticks), .appStep] ++ List.replicate n .tickInc ++ [.appStep]
        ++ List.replicate m .tickInc ++ [.appStep]) s = .next t ∧
      t.host.app = .delay ticks (some (s.dev.tick + BitVec.ofNat 24 ticks)) .hi ∧
      t.dev.tick = s.dev.tick + BitVec.ofNat 24 (n + m)) ∧
  (∀ (s : State) (ticks n m : Nat) (deadline : Tick), s.Attached → s.env.boardPresent = true →
    s.host.bound = true → s.host.probed = true → s.host.handler = .idle →
    s.host.app = .delay ticks (some deadline) .hi →
    ∃ t, runEvents ([.appStep] ++ List.replicate n .tickInc ++ [.appStep]
        ++ List.replicate m .tickInc ++ [.appStep]) s = .next t ∧
      t.dev.tick = s.dev.tick + BitVec.ofNat 24 (n + m) ∧
      if delayOver s.dev.tick deadline = true then t.host.app = .idle ∧ t.host.result = .done
      else t.host.app = .delay ticks (some deadline) .hi) ∧
  (∀ (s t : State) (ticks : Nat) (dl : Option Tick) (pc : TickPc), s.host.app = .delay ticks dl pc →
    step s = .next t →
      (∃ pc', t.host.app = .delay ticks dl pc') ∨
      (∃ hi mid, dl = none ∧ pc = .lo hi mid ∧
        t.host.app = .delay ticks (some ((hi ++ mid ++ t.readData) + BitVec.ofNat 24 ticks)) .hi) ∨
      (∃ hi mid deadline, dl = some deadline ∧ pc = .lo hi mid ∧
        delayOver (hi ++ mid ++ t.readData) deadline = true ∧ t.host.app = .idle ∧ t.host.result = .done))

/-- R217, R218: `Derive(m, scale)` is one more than the least count that lasts 400 ns, so it never
undershoots; it is at least 2. -/
def Obligations.DeriveNeverUndershoots : Prop :=
  ∀ m scale : Nat, 1 ≤ m →
    400 * scale < derive m scale * (1000 * m) ∧
    (∃ n, derive m scale = n + 1 ∧ 400 * scale ≤ n * (1000 * m) ∧
      ∀ k, 400 * scale ≤ k * (1000 * m) → n ≤ k) ∧
    (1 ≤ scale → 2 ≤ derive m scale)

/-- R216: the transitions of the calibration machine, entry and measurement, row by row. -/
def Obligations.CalibrationFollowsItsTable : Prop :=
  (∀ s : State, s.ready → s.host.cal = .idle → s.env.timerAvailable = false →
    runEvent (.call .application .calibrate) s = .next { s with host := { s.host with
      iters := some s.cfg.calFallbackIters, cal := .done, app := .idle
      result := .calibrated .timerUnavailable } }) ∧
  (∀ s : State, s.ready → s.host.cal = .idle → s.env.timerAvailable = true →
    runEvent (.call .application .calibrate) s = .next { s with host := { s.host with
      cal := .measure s.cfg.calMinScale true, app := .calibrate .disablePreemption } }) ∧
  (∀ (s : State) (scale : Nat) (first : Bool) (m : Int), s.host.handler = .idle →
    s.host.app = .calibrate (.decide m) → s.host.cal = .measure scale first →
    (first = true → 1000000 < m →
      runEvent .appStep s = .next { s with host := { s.host with
        iters := some s.cfg.calFallbackIters, cal := .done, app := .idle
        result := .calibrated .calibrationUnreliable } }) ∧
    (10000 ≤ m → ¬(first = true ∧ 1000000 < m) →
      runEvent .appStep s = .next { s with host := { s.host with
        iters := some (derive m.toNat scale), cal := .done, app := .idle
        result := .calibrated .ok } }) ∧
    (m < 10000 → 2 * scale ≤ s.cfg.calMaxScale →
      runEvent .appStep s = .next { s with host := { s.host with
        cal := .measure (2 * scale) false, app := .calibrate .disablePreemption } }) ∧
    (m < 10000 → s.cfg.calMaxScale < 2 * scale →
      runEvent .appStep s = .next { s with host := { s.host with
        iters := some s.cfg.calFallbackIters, cal := .done, app := .idle
        result := .calibrated .exhausted } })) ∧
  (∀ s : State, s.ready → s.host.cal ≠ .idle →
    runEvent (.call .application .calibrate) s = .refused .alreadyCalibrated)

/-- R214, R216, R219: one measurement sets PREEMPT_OFF before its first clock sample, takes both samples with it set
and the loop between them, clears it after the second, and decides on their difference in microseconds. -/
def Obligations.MeasurementSamplesWithPreemptionOff : Prop :=
  ∀ (s : State) (t0 t1 : ClockSample) (rest : List ClockSample), s.host.handler = .idle →
    s.host.app = .calibrate .disablePreemption → s.env.clock = t0 :: t1 :: rest →
      runEvents [.appStep] s = .next { s with
        host := { s.host with preemptOff := true, app := .calibrate .sampleBefore } } ∧
      runEvents [.appStep, .appStep] s = .next { s with
        env := { s.env with clock := t1 :: rest }
        host := { s.host with preemptOff := true, app := .calibrate (.loop t0) } } ∧
      runEvents [.appStep, .appStep, .appStep] s = .next { s with
        env := { s.env with clock := t1 :: rest }
        host := { s.host with preemptOff := true, app := .calibrate (.sampleAfter t0) } } ∧
      runEvents [.appStep, .appStep, .appStep, .appStep] s = .next { s with
        env := { s.env with clock := rest }
        host := { s.host with preemptOff := true, app := .calibrate (.enablePreemption t0 t1) } } ∧
      runEvents [.appStep, .appStep, .appStep, .appStep, .appStep] s = .next { s with
        env := { s.env with clock := rest }
        host := { s.host with
          preemptOff := false
          app := .calibrate (.decide (((t1.sec : Int) - t0.sec) * 1000000 + ((t1.usec.val : Int) - t0.usec.val))) } }

/-- R228: `openTimer()` returns a new handle or reports TimerUnavailable; `closeTimer(h)` releases `h` and what is armed
on it; `waitDeadline(h, us, sigs)` arms a deadline, blocks until it has passed or a signal of `sigs` is set, ends the
request and reports which it was. The model's choices (log 12): handles are numbered, a handle that is not open is
refused by `waitDeadline` and ignored by `closeTimer`, the signal stays set, and where both have happened either may be
reported; a blocked step is a refusal (log 8). -/
def Obligations.DeadlineTimerFollowsItsContract : Prop :=
  (∀ s : State, s.ready → s.env.timerAvailable = true →
    runEvents [.call .application .openTimer, .appStep] s = .next { s with host := { s.host with
      timer := { s.host.timer with
        handles := s.host.timer.handles ++ [s.host.timer.next], next := s.host.timer.next + 1 }
      app := .idle, result := .handle s.host.timer.next } }) ∧
  (∀ s : State, s.ready → s.env.timerAvailable = false →
    runEvents [.call .application .openTimer, .appStep] s = .next { s with host := { s.host with
      app := .idle, result := .error .timerUnavailable } }) ∧
  (∀ (s : State) (h : Nat), s.ready →
    runEvents [.call .application (.closeTimer h), .appStep] s = .next { s with host := { s.host with
      timer := { s.host.timer with
        handles := s.host.timer.handles.filter (· != h)
        request := s.host.timer.request.filter (·.handle != h) }
      app := .idle, result := .done } }) ∧
  (∀ (s : State) (h us : Nat) (sigs : List Nat), s.ready → h ∉ s.host.timer.handles →
    runEvent (.call .application (.waitDeadline h us sigs)) s = .refused .timerNotOpen) ∧
  (∀ (s : State) (h us : Nat) (sigs : List Nat), s.ready → h ∈ s.host.timer.handles →
    let wait := .call .application (.waitDeadline h us sigs)
    let ended (x : State) (bySignal : Bool) : State := { x with host := { x.host with
      timer := { x.host.timer with request := none }, app := .idle, result := .woken bySignal } }
    ((∀ n ∈ sigs, n ∉ s.host.signals) →
      runEvents [wait, .appStep] s = .refused (.notEnabled .appStep) ∧
      runEvents [wait, .deadline, .appStep] s = .next (ended s false) ∧
      ∀ n ∈ sigs, runEvents [wait, .signal n, .appStep] s =
        .next (ended { s with host := { s.host with signals := s.host.signals ++ [n] } } true)) ∧
    ((∃ n ∈ sigs, n ∈ s.host.signals) →
      runEvents [wait, .appStep] s = .next (ended s true) ∧
      ∃ b, runEvents [wait, .deadline, .appStep] s = .next (ended { s with draws := s.draws + 1 } b)))

/-- R30, R216, R221, R108, R187: every step keeps `itersPer400ns` positive and there exactly when calibration is done,
and the interrupt channel registered and served only where the board is probed; once calibration is done no step changes
it; and, of a driver attached to the board and the invariant holding, while the board is not probed a step changes IDPTR
alone on the board, or it is a step of the engine, of a pin or of the tick counter. (A driver bound elsewhere may do
more: log 3.) That PROBED is never cleared is the model's choice (logs 16,
21). -/
def Obligations.StepKeepsTheHostInvariants : Prop :=
  (∀ cfg : Params, (HostState.reset cfg).Inv) ∧
  (∀ s t : State, s.cfg.wf = true → s.host.Inv → step s = .next t → t.host.Inv) ∧
  (∀ s t : State, step s = .next t → s.host.cal = .done →
    t.host.cal = .done ∧ t.host.iters = s.host.iters) ∧
  (∀ s t : State, s.Attached → s.host.Inv → s.host.probed = false → step s = .next t →
    t.dev = { s.dev with idptr := t.dev.idptr } ∨
    (s.dev.canLaunch s.cfg = true ∧ t.dev = s.dev.launch s.cfg) ∨
    (s.dev.busy = true ∧ ∃ r, t.dev = s.dev.complete r) ∨
    (∃ p, t.dev = s.dev.pinChange s.cfg p) ∨
    t.dev = { s.dev with tick := s.dev.tick + 1 })

/-- R90, R31, R29, R273, R276, R187: initialization binds the configured base and line, an unset base and a selector
other than 2, 3, 6 taking the caller-supplied default, and creates the interrupt context with `lastFired = 0`;
destroying the handle unbinds it; registering, on a probed board, and deregistering write REGISTERED. The model's
choices: the rest of the host, PROBED included, is unchanged by initialization and destruction (log 16), REGISTERED too,
and both complete whatever the engine does and whether or not a handle exists (log 21); the parameters BASE and
IRQ_SELECTOR are not written (log 3). -/
def Obligations.BindingAndRegistration : Prop :=
  (∀ (s : State) (base : Option Addr) (sel : Option Nat) (sig : Nat), s.ready →
    runEvents [.call .application (.init base sel sig), .appStep] s = .next { s with host := { s.host with
      base := base.getD s.cfg.defaultBase
      irqLine :=
        if sel = some 2 then .two else if sel = some 3 then .three else if sel = some 6 then .six
        else s.cfg.defaultIrqLine
      bound := true
      ictx := { boardAddr := base.getD s.cfg.defaultBase, signalId := sig, lastFired := 0 }
      app := .idle
      result := .done } }) ∧
  (∀ s : State, s.ready →
    runEvents [.call .application .destroy, .appStep] s = .next { s with host := { s.host with
      bound := false, app := .idle, result := .done } }) ∧
  (∀ s : State, s.ready → s.host.bound = true → s.host.probed = true →
    runEvents [.call .application .register, .appStep] s = .next { s with host := { s.host with
      registered := true, app := .idle, result := .done } }) ∧
  (∀ s : State, s.ready →
    runEvents [.call .application .deregister, .appStep] s = .next { s with host := { s.host with
      registered := false, app := .idle, result := .done } })

/-- U60, R108, R251, R271, R272, R206, R220: a procedure is refused in the interrupt context, while another runs, before
the board is bound or probed, with too long a delay, and before calibration; `probe` needs a bound board alone. The same
guards a transaction of the application context's own: nothing in the window before BASE is bound, nothing but RD.IDENT
before the probe. The tag for an unbound board is the model's choice (log 16). -/
def Obligations.ProcedureGuards : Prop :=
  (∀ (s : State) (p : Call), runEvent (.call .interrupt p) s = .refused .wrongContext) ∧
  (∀ (s : State) (p : Call), s.host.handler = .idle → s.host.app ≠ .idle →
    runEvent (.call .application p) s = .refused .reentered) ∧
  (∀ (s : State) (p : Call), s.ready → usesBoard p = true → s.host.bound = true →
    s.host.probed = false → runEvent (.call .application p) s = .refused .notProbed) ∧
  (∀ (s : State) (p : Call), s.ready → (usesBoard p = true ∨ p = .probe) → s.host.bound = false →
    runEvent (.call .application p) s = .refused .notBound) ∧
  (∀ (s : State) (ticks : Nat), s.ready → 2 ^ 23 ≤ ticks →
    runEvent (.call .application (.delay ticks)) s = .refused .delayRange) ∧
  (∀ s : State, s.ready → s.host.iters = none →
    runEvent (.call .application .shortWait) s = .refused .uncalibratedWait) ∧
  (∀ (s : State) (e : Event) (c : BusCycle) (rest : List Event), s.ready → s.agenda = e :: rest →
    (e = .bus c ∨ ∃ a, e = .access a ∧ decodeAccess s.cfg.place a = .ok c) →
    ((∃ i, decode s.cfg.place.order c = .ok i ∧ i ≠ .rdIdent) ∨
      decode s.cfg.place.order c = .error .unmappedOffset) →
      (s.host.bound = false → step s = .refused .notBound) ∧
      (s.host.bound = true → s.host.probed = false → step s = .refused .notProbed)) ∧
  (∀ (s : State) (e : Event) (c : BusCycle) (rest : List Event), s.ready → s.agenda = e :: rest →
    (e = .bus c ∨ ∃ a, e = .access a ∧ decodeAccess s.cfg.place a = .ok c) →
    decode s.cfg.place.order c = .ok .rdIdent → s.host.bound = false → step s = .refused .notBound)

/-! ## Reset and invariants -/

/-- R36, R270: the values R36 gives after reset; cursors equal in pairs; the wake signal `signalId` not set. That no
other wake signal is set either, the last clause, is the model's choice (log 4). -/
def Obligations.ResetLeavesTheTableOfR36 : Prop :=
  let d := State.reset.dev
  let h := State.reset.host
  d.feed = 0 ∧ d.discard = 0 ∧ d.rxq = [] ∧ d.txq = [] ∧ d.rxHead = d.rxTail ∧ d.txHead = d.txTail ∧
  d.busy = false ∧ d.ss = State.reset.cfg.ssIdle ∧ d.fired = 0 ∧ d.armed = 0x00 ∧ d.tlatched = false ∧
  d.irq = false ∧ d.quiet = true ∧
  h.ictx.lastFired = 0 ∧ h.iters = none ∧ h.cal = .idle ∧ h.probed = false ∧ h.registered = false ∧
  h.inHandler = false ∧ h.preemptOff = false ∧ h.ictx.signalId ∉ h.signals ∧ h.signals = []

/-- R37, R4: the reset state meets the invariants, its uninterpreted parameters lying in their ranges. -/
def Obligations.ResetMeetsTheInvariants : Prop := State.reset.Inv

/-- R37, R144: every step of every agent keeps the invariants: each FIFO's cursor difference is its length and at
most FIFO_DEPTH, FIRED has only the pins' bits, ARMED is 0x00 or 0xFF, and a byte in flight has a sink. -/
def Obligations.StepKeepsTheInvariants : Prop :=
  ∀ s t : State, s.Inv → step s = .next t → t.Inv

/-- R17, R18, R122 to R125, R144: whatever step is taken, a FIFO keeps its bytes, gives up its head with its head
cursor advancing by one, or gains one byte at its tail with its tail cursor advancing by one. The head of the receive
FIFO goes to the host as the byte read, the head of the transmit FIFO into the shift register with the engine busy. -/
def Obligations.FifosLoseAndReorderNothing : Prop :=
  ∀ s t : State, step s = .next t →
    ((t.dev.rxq = s.dev.rxq ∧ t.dev.rxHead = s.dev.rxHead ∧ t.dev.rxTail = s.dev.rxTail) ∨
      (∃ b, s.dev.rxq = b :: t.dev.rxq ∧ t.dev.rxHead = s.dev.rxHead + 1 ∧ t.dev.rxTail = s.dev.rxTail ∧
        t.readData = b) ∨
      (∃ b, t.dev.rxq = s.dev.rxq ++ [b] ∧ t.dev.rxHead = s.dev.rxHead ∧ t.dev.rxTail = s.dev.rxTail + 1)) ∧
    ((t.dev.txq = s.dev.txq ∧ t.dev.txHead = s.dev.txHead ∧ t.dev.txTail = s.dev.txTail) ∨
      (∃ b, s.dev.txq = b :: t.dev.txq ∧ t.dev.txHead = s.dev.txHead + 1 ∧ t.dev.txTail = s.dev.txTail ∧
        t.dev.shiftTx = b ∧ s.dev.busy = false ∧ t.dev.busy = true) ∨
      (∃ b, t.dev.txq = s.dev.txq ++ [b] ∧ t.dev.txHead = s.dev.txHead ∧ t.dev.txTail = s.dev.txTail + 1))

/-- R130, R14, R20, R101, R35: LEN_HI, SPI_FREQ and SS change only while the engine is quiet; IDPTR only
advances by one; the parameters, BASE, IRQ_SELECTOR and REG_INDEX among them, never change. That the board's presence
never changes is the model's choice (log 5). -/
def Obligations.SettingsChangeOnlyWhileQuiet : Prop :=
  ∀ s t : State, step s = .next t →
    (s.dev.quiet = false →
      t.dev.lenHi = s.dev.lenHi ∧ t.dev.spiFreq = s.dev.spiFreq ∧ t.dev.ss = s.dev.ss) ∧
    (t.dev.idptr = s.dev.idptr ∨ t.dev.idptr = s.dev.idptr + 1) ∧
    t.cfg = s.cfg ∧ t.env.boardPresent = s.env.boardPresent
end

