-- ==== Sys2Proof/Laws/State.lean ====
section
/-! SUPPORT. One lemma per field per named update of the state and of the two queues. -/

namespace Sys2Proof.Machine

variable (s : State)

@[simp] theorem State.setDev_cfg (d : Device) : (s.setDev d).cfg = s.cfg := rfl
@[simp] theorem State.setDev_dev (d : Device) : (s.setDev d).dev = d := rfl
@[simp] theorem State.setDev_host (d : Device) : (s.setDev d).host = s.host := rfl
@[simp] theorem State.setDev_env (d : Device) : (s.setDev d).env = s.env := rfl
@[simp] theorem State.setDev_readData (d : Device) : (s.setDev d).readData = s.readData := rfl
@[simp] theorem State.setDev_draws (d : Device) : (s.setDev d).draws = s.draws := rfl
@[simp] theorem State.setDev_agenda (d : Device) : (s.setDev d).agenda = s.agenda := rfl
@[simp] theorem State.setDev_wire (d : Device) : (s.setDev d).wire = s.wire := rfl

@[simp] theorem State.setHost_cfg (h : HostState) : (s.setHost h).cfg = s.cfg := rfl
@[simp] theorem State.setHost_dev (h : HostState) : (s.setHost h).dev = s.dev := rfl
@[simp] theorem State.setHost_host (h : HostState) : (s.setHost h).host = h := rfl
@[simp] theorem State.setHost_env (h : HostState) : (s.setHost h).env = s.env := rfl
@[simp] theorem State.setHost_readData (h : HostState) : (s.setHost h).readData = s.readData := rfl
@[simp] theorem State.setHost_draws (h : HostState) : (s.setHost h).draws = s.draws := rfl
@[simp] theorem State.setHost_agenda (h : HostState) : (s.setHost h).agenda = s.agenda := rfl
@[simp] theorem State.setHost_wire (h : HostState) : (s.setHost h).wire = s.wire := rfl

@[simp] theorem State.answer_cfg (v : Byte) : (s.answer v).cfg = s.cfg := rfl
@[simp] theorem State.answer_dev (v : Byte) : (s.answer v).dev = s.dev := rfl
@[simp] theorem State.answer_host (v : Byte) : (s.answer v).host = s.host := rfl
@[simp] theorem State.answer_env (v : Byte) : (s.answer v).env = s.env := rfl
@[simp] theorem State.answer_readData (v : Byte) : (s.answer v).readData = v := rfl
@[simp] theorem State.answer_draws (v : Byte) : (s.answer v).draws = s.draws := rfl
@[simp] theorem State.answer_agenda (v : Byte) : (s.answer v).agenda = s.agenda := rfl
@[simp] theorem State.answer_wire (v : Byte) : (s.answer v).wire = s.wire := rfl

@[simp] theorem State.drawn_cfg : (s.drawn).cfg = s.cfg := rfl
@[simp] theorem State.drawn_dev : (s.drawn).dev = s.dev := rfl
@[simp] theorem State.drawn_host : (s.drawn).host = s.host := rfl
@[simp] theorem State.drawn_env : (s.drawn).env = s.env := rfl
@[simp] theorem State.drawn_readData : (s.drawn).readData = s.readData := rfl
@[simp] theorem State.drawn_draws : (s.drawn).draws = s.draws + 1 := rfl
@[simp] theorem State.drawn_agenda : (s.drawn).agenda = s.agenda := rfl
@[simp] theorem State.drawn_wire : (s.drawn).wire = s.wire := rfl

@[simp] theorem State.goto_cfg (a : AppState) : (s.goto a).cfg = s.cfg := rfl
@[simp] theorem State.goto_dev (a : AppState) : (s.goto a).dev = s.dev := rfl
@[simp] theorem State.goto_host (a : AppState) : (s.goto a).host = { s.host with app := a } := rfl
@[simp] theorem State.goto_env (a : AppState) : (s.goto a).env = s.env := rfl
@[simp] theorem State.goto_readData (a : AppState) : (s.goto a).readData = s.readData := rfl
@[simp] theorem State.goto_draws (a : AppState) : (s.goto a).draws = s.draws := rfl
@[simp] theorem State.goto_agenda (a : AppState) : (s.goto a).agenda = s.agenda := rfl
@[simp] theorem State.goto_wire (a : AppState) : (s.goto a).wire = s.wire := rfl

@[simp] theorem State.finish_cfg (r : Result) : (s.finish r).cfg = s.cfg := rfl
@[simp] theorem State.finish_dev (r : Result) : (s.finish r).dev = s.dev := rfl
@[simp] theorem State.finish_host (r : Result) : (s.finish r).host = { s.host with app := .idle, result := r } := rfl
@[simp] theorem State.finish_env (r : Result) : (s.finish r).env = s.env := rfl
@[simp] theorem State.finish_readData (r : Result) : (s.finish r).readData = s.readData := rfl
@[simp] theorem State.finish_draws (r : Result) : (s.finish r).draws = s.draws := rfl
@[simp] theorem State.finish_agenda (r : Result) : (s.finish r).agenda = s.agenda := rfl
@[simp] theorem State.finish_wire (r : Result) : (s.finish r).wire = s.wire := rfl

@[simp] theorem State.takeInterrupt_cfg : (s.takeInterrupt).cfg = s.cfg := rfl
@[simp] theorem State.takeInterrupt_dev : (s.takeInterrupt).dev = s.dev := rfl
@[simp] theorem State.takeInterrupt_host : (s.takeInterrupt).host = { s.host with handler := .readFired } := rfl
@[simp] theorem State.takeInterrupt_env : (s.takeInterrupt).env = s.env := rfl
@[simp] theorem State.takeInterrupt_readData : (s.takeInterrupt).readData = s.readData := rfl
@[simp] theorem State.takeInterrupt_draws : (s.takeInterrupt).draws = s.draws := rfl
@[simp] theorem State.takeInterrupt_agenda : (s.takeInterrupt).agenda = s.agenda := rfl
@[simp] theorem State.takeInterrupt_wire : (s.takeInterrupt).wire = s.wire := rfl

@[simp] theorem State.leaveInterrupt_cfg : (s.leaveInterrupt).cfg = s.cfg := rfl
@[simp] theorem State.leaveInterrupt_dev : (s.leaveInterrupt).dev = s.dev := rfl
@[simp] theorem State.leaveInterrupt_host : (s.leaveInterrupt).host = { s.host with handler := .idle } := rfl
@[simp] theorem State.leaveInterrupt_env : (s.leaveInterrupt).env = s.env := rfl
@[simp] theorem State.leaveInterrupt_readData : (s.leaveInterrupt).readData = s.readData := rfl
@[simp] theorem State.leaveInterrupt_draws : (s.leaveInterrupt).draws = s.draws := rfl
@[simp] theorem State.leaveInterrupt_agenda : (s.leaveInterrupt).agenda = s.agenda := rfl
@[simp] theorem State.leaveInterrupt_wire : (s.leaveInterrupt).wire = s.wire := rfl

@[simp] theorem State.disarmTimer_cfg : (s.disarmTimer).cfg = s.cfg := rfl
@[simp] theorem State.disarmTimer_dev : (s.disarmTimer).dev = s.dev := rfl
@[simp] theorem State.disarmTimer_host : (s.disarmTimer).host = { s.host with timer := { s.host.timer with request := none } } := rfl
@[simp] theorem State.disarmTimer_env : (s.disarmTimer).env = s.env := rfl
@[simp] theorem State.disarmTimer_readData : (s.disarmTimer).readData = s.readData := rfl
@[simp] theorem State.disarmTimer_draws : (s.disarmTimer).draws = s.draws := rfl
@[simp] theorem State.disarmTimer_agenda : (s.disarmTimer).agenda = s.agenda := rfl
@[simp] theorem State.disarmTimer_wire : (s.disarmTimer).wire = s.wire := rfl

@[simp] theorem State.armTimer_cfg (h us : Nat) : (s.armTimer h us).cfg = s.cfg := rfl
@[simp] theorem State.armTimer_dev (h us : Nat) : (s.armTimer h us).dev = s.dev := rfl
@[simp] theorem State.armTimer_host (h us : Nat) : (s.armTimer h us).host = { s.host with timer := { s.host.timer with request := some { handle := h, us := us, expired := false } } } := rfl
@[simp] theorem State.armTimer_env (h us : Nat) : (s.armTimer h us).env = s.env := rfl
@[simp] theorem State.armTimer_readData (h us : Nat) : (s.armTimer h us).readData = s.readData := rfl
@[simp] theorem State.armTimer_draws (h us : Nat) : (s.armTimer h us).draws = s.draws := rfl
@[simp] theorem State.armTimer_agenda (h us : Nat) : (s.armTimer h us).agenda = s.agenda := rfl
@[simp] theorem State.armTimer_wire (h us : Nat) : (s.armTimer h us).wire = s.wire := rfl

@[simp] theorem State.noteIssued_cfg (i : Instr) : (s.noteIssued i).cfg = s.cfg := by cases i <;> rfl
@[simp] theorem State.noteIssued_dev (i : Instr) : (s.noteIssued i).dev = s.dev := by cases i <;> rfl
@[simp] theorem State.noteIssued_env (i : Instr) : (s.noteIssued i).env = s.env := by cases i <;> rfl
@[simp] theorem State.noteIssued_readData (i : Instr) : (s.noteIssued i).readData = s.readData := by cases i <;> rfl
@[simp] theorem State.noteIssued_draws (i : Instr) : (s.noteIssued i).draws = s.draws := by cases i <;> rfl
@[simp] theorem State.noteIssued_agenda (i : Instr) : (s.noteIssued i).agenda = s.agenda := by cases i <;> rfl
@[simp] theorem State.noteIssued_wire (i : Instr) : (s.noteIssued i).wire = s.wire := by cases i <;> rfl
@[simp] theorem State.noteIssued_host_base (i : Instr) : (s.noteIssued i).host.base = s.host.base := by cases i <;> rfl
@[simp] theorem State.noteIssued_host_irqLine (i : Instr) : (s.noteIssued i).host.irqLine = s.host.irqLine := by cases i <;> rfl
@[simp] theorem State.noteIssued_host_bound (i : Instr) : (s.noteIssued i).host.bound = s.host.bound := by cases i <;> rfl
@[simp] theorem State.noteIssued_host_ictx (i : Instr) : (s.noteIssued i).host.ictx = s.host.ictx := by cases i <;> rfl
@[simp] theorem State.noteIssued_host_iters (i : Instr) : (s.noteIssued i).host.iters = s.host.iters := by cases i <;> rfl
@[simp] theorem State.noteIssued_host_cal (i : Instr) : (s.noteIssued i).host.cal = s.host.cal := by cases i <;> rfl
@[simp] theorem State.noteIssued_host_probed (i : Instr) : (s.noteIssued i).host.probed = s.host.probed := by cases i <;> rfl
@[simp] theorem State.noteIssued_host_version (i : Instr) : (s.noteIssued i).host.version = s.host.version := by cases i <;> rfl
@[simp] theorem State.noteIssued_host_registered (i : Instr) : (s.noteIssued i).host.registered = s.host.registered := by cases i <;> rfl
@[simp] theorem State.noteIssued_host_handler (i : Instr) : (s.noteIssued i).host.handler = s.host.handler := by cases i <;> rfl
@[simp] theorem State.noteIssued_host_preemptOff (i : Instr) : (s.noteIssued i).host.preemptOff = s.host.preemptOff := by cases i <;> rfl
@[simp] theorem State.noteIssued_host_signals (i : Instr) : (s.noteIssued i).host.signals = s.host.signals := by cases i <;> rfl
@[simp] theorem State.noteIssued_host_timer (i : Instr) : (s.noteIssued i).host.timer = s.host.timer := by cases i <;> rfl
@[simp] theorem State.noteIssued_host_app (i : Instr) : (s.noteIssued i).host.app = s.host.app := by cases i <;> rfl
@[simp] theorem State.noteIssued_host_result (i : Instr) : (s.noteIssued i).host.result = s.host.result := by cases i <;> rfl
@[simp] theorem State.noteIssued_wrSs_holdOwed (d : Byte) :
    (s.noteIssued (.wrSs d)).host.holdOwed = (s.host.holdOwed || d == s.cfg.ssIdle) := rfl

@[simp] theorem State.calibrated_cfg (n : Nat) (c : CalCondition) : (s.calibrated n c).cfg = s.cfg := rfl
@[simp] theorem State.calibrated_dev (n : Nat) (c : CalCondition) : (s.calibrated n c).dev = s.dev := rfl
@[simp] theorem State.calibrated_host (n : Nat) (c : CalCondition) : (s.calibrated n c).host = { s.host with iters := some n, cal := .done, app := .idle, result := .calibrated c } := rfl
@[simp] theorem State.calibrated_env (n : Nat) (c : CalCondition) : (s.calibrated n c).env = s.env := rfl
@[simp] theorem State.calibrated_readData (n : Nat) (c : CalCondition) : (s.calibrated n c).readData = s.readData := rfl
@[simp] theorem State.calibrated_draws (n : Nat) (c : CalCondition) : (s.calibrated n c).draws = s.draws := rfl
@[simp] theorem State.calibrated_agenda (n : Nat) (c : CalCondition) : (s.calibrated n c).agenda = s.agenda := rfl
@[simp] theorem State.calibrated_wire (n : Nat) (c : CalCondition) : (s.calibrated n c).wire = s.wire := rfl

variable (d : Device)

@[simp] theorem Device.pushRx_lenHi (b : Byte) : (d.pushRx b).lenHi = d.lenHi := rfl
@[simp] theorem Device.pushRx_feed (b : Byte) : (d.pushRx b).feed = d.feed := rfl
@[simp] theorem Device.pushRx_discard (b : Byte) : (d.pushRx b).discard = d.discard := rfl
@[simp] theorem Device.pushRx_rxq (b : Byte) : (d.pushRx b).rxq = d.rxq ++ [b] := rfl
@[simp] theorem Device.pushRx_rxHead (b : Byte) : (d.pushRx b).rxHead = d.rxHead := rfl
@[simp] theorem Device.pushRx_rxTail (b : Byte) : (d.pushRx b).rxTail = d.rxTail + 1 := rfl
@[simp] theorem Device.pushRx_txq (b : Byte) : (d.pushRx b).txq = d.txq := rfl
@[simp] theorem Device.pushRx_txHead (b : Byte) : (d.pushRx b).txHead = d.txHead := rfl
@[simp] theorem Device.pushRx_txTail (b : Byte) : (d.pushRx b).txTail = d.txTail := rfl
@[simp] theorem Device.pushRx_busy (b : Byte) : (d.pushRx b).busy = d.busy := rfl
@[simp] theorem Device.pushRx_shiftTx (b : Byte) : (d.pushRx b).shiftTx = d.shiftTx := rfl
@[simp] theorem Device.pushRx_spiFreq (b : Byte) : (d.pushRx b).spiFreq = d.spiFreq := rfl
@[simp] theorem Device.pushRx_ss (b : Byte) : (d.pushRx b).ss = d.ss := rfl
@[simp] theorem Device.pushRx_pinCd (b : Byte) : (d.pushRx b).pinCd = d.pinCd := rfl
@[simp] theorem Device.pushRx_pinExt (b : Byte) : (d.pushRx b).pinExt = d.pinExt := rfl
@[simp] theorem Device.pushRx_fired (b : Byte) : (d.pushRx b).fired = d.fired := rfl
@[simp] theorem Device.pushRx_armed (b : Byte) : (d.pushRx b).armed = d.armed := rfl
@[simp] theorem Device.pushRx_idptr (b : Byte) : (d.pushRx b).idptr = d.idptr := rfl
@[simp] theorem Device.pushRx_tick (b : Byte) : (d.pushRx b).tick = d.tick := rfl
@[simp] theorem Device.pushRx_tlatch (b : Byte) : (d.pushRx b).tlatch = d.tlatch := rfl
@[simp] theorem Device.pushRx_tlatched (b : Byte) : (d.pushRx b).tlatched = d.tlatched := rfl

@[simp] theorem Device.popRx_lenHi (q : List Byte) : (d.popRx q).lenHi = d.lenHi := rfl
@[simp] theorem Device.popRx_feed (q : List Byte) : (d.popRx q).feed = d.feed := rfl
@[simp] theorem Device.popRx_discard (q : List Byte) : (d.popRx q).discard = d.discard := rfl
@[simp] theorem Device.popRx_rxq (q : List Byte) : (d.popRx q).rxq = q := rfl
@[simp] theorem Device.popRx_rxHead (q : List Byte) : (d.popRx q).rxHead = d.rxHead + 1 := rfl
@[simp] theorem Device.popRx_rxTail (q : List Byte) : (d.popRx q).rxTail = d.rxTail := rfl
@[simp] theorem Device.popRx_txq (q : List Byte) : (d.popRx q).txq = d.txq := rfl
@[simp] theorem Device.popRx_txHead (q : List Byte) : (d.popRx q).txHead = d.txHead := rfl
@[simp] theorem Device.popRx_txTail (q : List Byte) : (d.popRx q).txTail = d.txTail := rfl
@[simp] theorem Device.popRx_busy (q : List Byte) : (d.popRx q).busy = d.busy := rfl
@[simp] theorem Device.popRx_shiftTx (q : List Byte) : (d.popRx q).shiftTx = d.shiftTx := rfl
@[simp] theorem Device.popRx_spiFreq (q : List Byte) : (d.popRx q).spiFreq = d.spiFreq := rfl
@[simp] theorem Device.popRx_ss (q : List Byte) : (d.popRx q).ss = d.ss := rfl
@[simp] theorem Device.popRx_pinCd (q : List Byte) : (d.popRx q).pinCd = d.pinCd := rfl
@[simp] theorem Device.popRx_pinExt (q : List Byte) : (d.popRx q).pinExt = d.pinExt := rfl
@[simp] theorem Device.popRx_fired (q : List Byte) : (d.popRx q).fired = d.fired := rfl
@[simp] theorem Device.popRx_armed (q : List Byte) : (d.popRx q).armed = d.armed := rfl
@[simp] theorem Device.popRx_idptr (q : List Byte) : (d.popRx q).idptr = d.idptr := rfl
@[simp] theorem Device.popRx_tick (q : List Byte) : (d.popRx q).tick = d.tick := rfl
@[simp] theorem Device.popRx_tlatch (q : List Byte) : (d.popRx q).tlatch = d.tlatch := rfl
@[simp] theorem Device.popRx_tlatched (q : List Byte) : (d.popRx q).tlatched = d.tlatched := rfl

@[simp] theorem Device.pushTx_lenHi (b : Byte) : (d.pushTx b).lenHi = d.lenHi := rfl
@[simp] theorem Device.pushTx_feed (b : Byte) : (d.pushTx b).feed = d.feed := rfl
@[simp] theorem Device.pushTx_discard (b : Byte) : (d.pushTx b).discard = d.discard := rfl
@[simp] theorem Device.pushTx_rxq (b : Byte) : (d.pushTx b).rxq = d.rxq := rfl
@[simp] theorem Device.pushTx_rxHead (b : Byte) : (d.pushTx b).rxHead = d.rxHead := rfl
@[simp] theorem Device.pushTx_rxTail (b : Byte) : (d.pushTx b).rxTail = d.rxTail := rfl
@[simp] theorem Device.pushTx_txq (b : Byte) : (d.pushTx b).txq = d.txq ++ [b] := rfl
@[simp] theorem Device.pushTx_txHead (b : Byte) : (d.pushTx b).txHead = d.txHead := rfl
@[simp] theorem Device.pushTx_txTail (b : Byte) : (d.pushTx b).txTail = d.txTail + 1 := rfl
@[simp] theorem Device.pushTx_busy (b : Byte) : (d.pushTx b).busy = d.busy := rfl
@[simp] theorem Device.pushTx_shiftTx (b : Byte) : (d.pushTx b).shiftTx = d.shiftTx := rfl
@[simp] theorem Device.pushTx_spiFreq (b : Byte) : (d.pushTx b).spiFreq = d.spiFreq := rfl
@[simp] theorem Device.pushTx_ss (b : Byte) : (d.pushTx b).ss = d.ss := rfl
@[simp] theorem Device.pushTx_pinCd (b : Byte) : (d.pushTx b).pinCd = d.pinCd := rfl
@[simp] theorem Device.pushTx_pinExt (b : Byte) : (d.pushTx b).pinExt = d.pinExt := rfl
@[simp] theorem Device.pushTx_fired (b : Byte) : (d.pushTx b).fired = d.fired := rfl
@[simp] theorem Device.pushTx_armed (b : Byte) : (d.pushTx b).armed = d.armed := rfl
@[simp] theorem Device.pushTx_idptr (b : Byte) : (d.pushTx b).idptr = d.idptr := rfl
@[simp] theorem Device.pushTx_tick (b : Byte) : (d.pushTx b).tick = d.tick := rfl
@[simp] theorem Device.pushTx_tlatch (b : Byte) : (d.pushTx b).tlatch = d.tlatch := rfl
@[simp] theorem Device.pushTx_tlatched (b : Byte) : (d.pushTx b).tlatched = d.tlatched := rfl

@[simp] theorem Device.popTx_lenHi (q : List Byte) : (d.popTx q).lenHi = d.lenHi := rfl
@[simp] theorem Device.popTx_feed (q : List Byte) : (d.popTx q).feed = d.feed := rfl
@[simp] theorem Device.popTx_discard (q : List Byte) : (d.popTx q).discard = d.discard := rfl
@[simp] theorem Device.popTx_rxq (q : List Byte) : (d.popTx q).rxq = d.rxq := rfl
@[simp] theorem Device.popTx_rxHead (q : List Byte) : (d.popTx q).rxHead = d.rxHead := rfl
@[simp] theorem Device.popTx_rxTail (q : List Byte) : (d.popTx q).rxTail = d.rxTail := rfl
@[simp] theorem Device.popTx_txq (q : List Byte) : (d.popTx q).txq = q := rfl
@[simp] theorem Device.popTx_txHead (q : List Byte) : (d.popTx q).txHead = d.txHead + 1 := rfl
@[simp] theorem Device.popTx_txTail (q : List Byte) : (d.popTx q).txTail = d.txTail := rfl
@[simp] theorem Device.popTx_busy (q : List Byte) : (d.popTx q).busy = d.busy := rfl
@[simp] theorem Device.popTx_shiftTx (q : List Byte) : (d.popTx q).shiftTx = d.shiftTx := rfl
@[simp] theorem Device.popTx_spiFreq (q : List Byte) : (d.popTx q).spiFreq = d.spiFreq := rfl
@[simp] theorem Device.popTx_ss (q : List Byte) : (d.popTx q).ss = d.ss := rfl
@[simp] theorem Device.popTx_pinCd (q : List Byte) : (d.popTx q).pinCd = d.pinCd := rfl
@[simp] theorem Device.popTx_pinExt (q : List Byte) : (d.popTx q).pinExt = d.pinExt := rfl
@[simp] theorem Device.popTx_fired (q : List Byte) : (d.popTx q).fired = d.fired := rfl
@[simp] theorem Device.popTx_armed (q : List Byte) : (d.popTx q).armed = d.armed := rfl
@[simp] theorem Device.popTx_idptr (q : List Byte) : (d.popTx q).idptr = d.idptr := rfl
@[simp] theorem Device.popTx_tick (q : List Byte) : (d.popTx q).tick = d.tick := rfl
@[simp] theorem Device.popTx_tlatch (q : List Byte) : (d.popTx q).tlatch = d.tlatch := rfl
@[simp] theorem Device.popTx_tlatched (q : List Byte) : (d.popTx q).tlatched = d.tlatched := rfl

@[simp] theorem HostState.raise_base (h : HostState) (n : Nat) : (h.raise n).base = h.base := rfl
@[simp] theorem HostState.raise_irqLine (h : HostState) (n : Nat) : (h.raise n).irqLine = h.irqLine := rfl
@[simp] theorem HostState.raise_bound (h : HostState) (n : Nat) : (h.raise n).bound = h.bound := rfl
@[simp] theorem HostState.raise_ictx (h : HostState) (n : Nat) : (h.raise n).ictx = h.ictx := rfl
@[simp] theorem HostState.raise_iters (h : HostState) (n : Nat) : (h.raise n).iters = h.iters := rfl
@[simp] theorem HostState.raise_cal (h : HostState) (n : Nat) : (h.raise n).cal = h.cal := rfl
@[simp] theorem HostState.raise_probed (h : HostState) (n : Nat) : (h.raise n).probed = h.probed := rfl
@[simp] theorem HostState.raise_version (h : HostState) (n : Nat) : (h.raise n).version = h.version := rfl
@[simp] theorem HostState.raise_registered (h : HostState) (n : Nat) : (h.raise n).registered = h.registered := rfl
@[simp] theorem HostState.raise_handler (h : HostState) (n : Nat) : (h.raise n).handler = h.handler := rfl
@[simp] theorem HostState.raise_preemptOff (h : HostState) (n : Nat) : (h.raise n).preemptOff = h.preemptOff := rfl
@[simp] theorem HostState.raise_holdOwed (h : HostState) (n : Nat) : (h.raise n).holdOwed = h.holdOwed := rfl
@[simp] theorem HostState.raise_timer (h : HostState) (n : Nat) : (h.raise n).timer = h.timer := rfl
@[simp] theorem HostState.raise_app (h : HostState) (n : Nat) : (h.raise n).app = h.app := rfl
@[simp] theorem HostState.raise_result (h : HostState) (n : Nat) : (h.raise n).result = h.result := rfl

@[simp] theorem HostState.clear_base (h : HostState) (n : Nat) : (h.clear n).base = h.base := rfl
@[simp] theorem HostState.clear_irqLine (h : HostState) (n : Nat) : (h.clear n).irqLine = h.irqLine := rfl
@[simp] theorem HostState.clear_bound (h : HostState) (n : Nat) : (h.clear n).bound = h.bound := rfl
@[simp] theorem HostState.clear_ictx (h : HostState) (n : Nat) : (h.clear n).ictx = h.ictx := rfl
@[simp] theorem HostState.clear_iters (h : HostState) (n : Nat) : (h.clear n).iters = h.iters := rfl
@[simp] theorem HostState.clear_cal (h : HostState) (n : Nat) : (h.clear n).cal = h.cal := rfl
@[simp] theorem HostState.clear_probed (h : HostState) (n : Nat) : (h.clear n).probed = h.probed := rfl
@[simp] theorem HostState.clear_version (h : HostState) (n : Nat) : (h.clear n).version = h.version := rfl
@[simp] theorem HostState.clear_registered (h : HostState) (n : Nat) : (h.clear n).registered = h.registered := rfl
@[simp] theorem HostState.clear_handler (h : HostState) (n : Nat) : (h.clear n).handler = h.handler := rfl
@[simp] theorem HostState.clear_preemptOff (h : HostState) (n : Nat) : (h.clear n).preemptOff = h.preemptOff := rfl
@[simp] theorem HostState.clear_holdOwed (h : HostState) (n : Nat) : (h.clear n).holdOwed = h.holdOwed := rfl
@[simp] theorem HostState.clear_timer (h : HostState) (n : Nat) : (h.clear n).timer = h.timer := rfl
@[simp] theorem HostState.clear_app (h : HostState) (n : Nat) : (h.clear n).app = h.app := rfl
@[simp] theorem HostState.clear_result (h : HostState) (n : Nat) : (h.clear n).result = h.result := rfl

end Sys2Proof.Machine
end

