-- ==== Sys2Proof/Laws/Ops.lean ====
section
/-! SUPPORT. For each shared operation, what it answers, said once. -/

namespace Sys2Proof.Machine

/-! ## Accesses -/

/-- The answer of an absent board to a read (R58): a draw, nothing else changed. -/
def State.garbled (s : State) : State := s.drawn.answer s.anyByte

theorem readAccess_present {s : State} (h : s.env.boardPresent = true) (k : State → Out) :
    readAccess s k = k s := by simp [readAccess, h]

theorem readAccess_absent {s : State} (h : s.env.boardPresent = false) (k : State → Out) :
    readAccess s k = .next s.garbled := by simp [readAccess, h, State.garbled]

theorem writeAccess_present {s : State} (h : s.env.boardPresent = true) (k : State → Out) :
    writeAccess s k = k s := by simp [writeAccess, h]

theorem writeAccess_absent {s : State} (h : s.env.boardPresent = false) (k : State → Out) :
    writeAccess s k = .next s := by simp [writeAccess, h]

/-- A read that answers either ran its own rule or found no board. -/
theorem readAccess_next {s t : State} {k : State → Out} (h : readAccess s k = .next t) :
    (s.env.boardPresent = true ∧ k s = .next t) ∨ (s.env.boardPresent = false ∧ t = s.garbled) := by
  cases hb : s.env.boardPresent
  · rw [readAccess_absent hb] at h
    exact .inr ⟨rfl, (Host.Outcome.next.inj h).symm⟩
  · rw [readAccess_present hb] at h
    exact .inl ⟨rfl, h⟩

/-- A write that answers either ran its own rule or found no board. -/
theorem writeAccess_next {s t : State} {k : State → Out} (h : writeAccess s k = .next t) :
    (s.env.boardPresent = true ∧ k s = .next t) ∨ (s.env.boardPresent = false ∧ t = s) := by
  cases hb : s.env.boardPresent
  · rw [writeAccess_absent hb] at h
    exact .inr ⟨rfl, (Host.Outcome.next.inj h).symm⟩
  · rw [writeAccess_present hb] at h
    exact .inl ⟨rfl, h⟩

theorem plainRead_next {s t : State} {f : Device → Byte} (h : plainRead s f = .next t) :
    t = s.answer (f s.dev) ∨ t = s.garbled := by
  rcases readAccess_next h with ⟨-, h⟩ | ⟨-, h⟩
  · exact .inl (Host.Outcome.next.inj h).symm
  · exact .inr h

theorem drawnRead_next {s t : State} {f : Params → Device → Byte → Byte}
    (h : drawnRead s f = .next t) :
    t = s.drawn.answer (f s.cfg s.dev s.anyByte) ∨ t = s.garbled := by
  rcases readAccess_next h with ⟨-, h⟩ | ⟨-, h⟩
  · exact .inl (Host.Outcome.next.inj h).symm
  · exact .inr h

theorem plainWrite_next {s t : State} {f : Device → Device} (h : plainWrite s f = .next t) :
    t = s.setDev (f s.dev) ∨ t = s := by
  rcases writeAccess_next h with ⟨-, h⟩ | ⟨-, h⟩
  · exact .inl (Host.Outcome.next.inj h).symm
  · exact .inr h

theorem quietWrite_next {s t : State} {r : Refusal} {f : Device → Device}
    (h : quietWrite s r f = .next t) :
    (s.dev.quiet = true ∧ t = s.setDev (f s.dev)) ∨ t = s := by
  rcases writeAccess_next h with ⟨-, h⟩ | ⟨-, h⟩
  · split at h
    · exact .inl ⟨‹_›, (Host.Outcome.next.inj h).symm⟩
    · cases h
  · exact .inr h

theorem refusedRead_next {s t : State} {r : Refusal} (h : refusedRead s r = .next t) :
    t = s.garbled := by
  rcases readAccess_next h with ⟨-, h⟩ | ⟨-, h⟩
  · cases h
  · exact h

theorem refusedWrite_next {s t : State} {r : Refusal} (h : refusedWrite s r = .next t) : t = s := by
  rcases writeAccess_next h with ⟨-, h⟩ | ⟨-, h⟩
  · cases h
  · exact h

/-! ## The queues -/

theorem occupancy_push (h t : Byte) : occupancy h (t + 1) = occupancy h t + 1 := by
  unfold occupancy; bv_omega

theorem occupancy_pop (h t : Byte) : occupancy (h + 1) t = occupancy h t - 1 := by
  unfold occupancy; bv_omega

theorem Params.wf_depth {p : Params} (h : p.wf = true) : 1 ≤ p.fifoDepth ∧ p.fifoDepth ≤ 255 := by
  simp only [Params.wf, Bool.and_eq_true, decide_eq_true_eq] at h
  exact h.1.1.2

theorem Params.wf_place {p : Params} (h : p.wf = true) : p.place.wf = true := by
  simp only [Params.wf, Bool.and_eq_true] at h
  exact h.1.1.1.1.1.1.1

theorem Placement.wf_order {p : Placement} (h : p.wf = true) : orderWf p.order = true := by
  simp only [Placement.wf, Bool.and_eq_true] at h
  exact h.1.1.1.1.1.1

/-- A byte added to a receive FIFO with room leaves it in agreement with its cursors. -/
theorem Device.rxInv_pushRx {cfg : Params} {d : Device} (hw : cfg.wf = true) (h : d.rxInv cfg) (b : Byte)
    (hroom : d.rxq.length < cfg.fifoDepth) : (d.pushRx b).rxInv cfg := by
  obtain ⟨h1, -⟩ := h
  have hd := (Params.wf_depth hw).2
  refine ⟨?_, by simpa using hroom⟩
  simp only [Device.pushRx_rxHead, Device.pushRx_rxTail, Device.pushRx_rxq, occupancy_push,
    List.length_append, List.length_singleton]
  bv_omega

/-- A byte taken from a receive FIFO leaves it in agreement with its cursors. -/
theorem Device.rxInv_popRx {cfg : Params} {d : Device} (h : d.rxInv cfg) {b : Byte} {q : List Byte}
    (hq : d.rxq = b :: q) : (d.popRx q).rxInv cfg := by
  obtain ⟨h1, h2⟩ := h
  rw [hq] at h1 h2
  simp only [List.length_cons] at h1 h2
  refine ⟨?_, by simp only [Device.popRx_rxq]; omega⟩
  simp only [Device.popRx_rxHead, Device.popRx_rxTail, Device.popRx_rxq, occupancy_pop]
  bv_omega

/-- A byte added to a transmit FIFO with room leaves it in agreement with its cursors. -/
theorem Device.txInv_pushTx {cfg : Params} {d : Device} (hw : cfg.wf = true) (h : d.txInv cfg) (b : Byte)
    (hroom : d.txq.length < cfg.fifoDepth) : (d.pushTx b).txInv cfg := by
  obtain ⟨h1, -⟩ := h
  have hd := (Params.wf_depth hw).2
  refine ⟨?_, by simpa using hroom⟩
  simp only [Device.pushTx_txHead, Device.pushTx_txTail, Device.pushTx_txq, occupancy_push,
    List.length_append, List.length_singleton]
  bv_omega

/-- A byte taken from a transmit FIFO leaves it in agreement with its cursors. -/
theorem Device.txInv_popTx {cfg : Params} {d : Device} (h : d.txInv cfg) {b : Byte} {q : List Byte}
    (hq : d.txq = b :: q) : (d.popTx q).txInv cfg := by
  obtain ⟨h1, h2⟩ := h
  rw [hq] at h1 h2
  simp only [List.length_cons] at h1 h2
  refine ⟨?_, by simp only [Device.popTx_txq]; omega⟩
  simp only [Device.popTx_txHead, Device.popTx_txTail, Device.popTx_txq, occupancy_pop]
  bv_omega

/-! ## Signals and the interrupt -/

theorem HostState.mem_raise (h : HostState) (n : Nat) : n ∈ (h.raise n).signals := by
  unfold HostState.raise
  split <;> simp_all

theorem HostState.not_mem_clear (h : HostState) (n : Nat) : n ∉ (h.clear n).signals := by
  simp [HostState.clear]

theorem State.takeInterrupt_inHandler (s : State) : s.takeInterrupt.host.inHandler = true := rfl

theorem State.leaveInterrupt_inHandler (s : State) : s.leaveInterrupt.host.inHandler = false := rfl

/-! ## The engine and the pins -/

/-- What ENG.LAUNCH can do (R140): take the head of TXQ, or a dummy byte where TXQ is empty. -/
theorem Device.launch_cases (cfg : Params) (d : Device) :
    (∃ b q, d.txq = b :: q ∧ d.launch cfg = { d.popTx q with shiftTx := b, busy := true }) ∨
    (d.txq = [] ∧ d.launch cfg = { d with shiftTx := cfg.dummyTxByte, feed := d.feed - 1, busy := true }) := by
  unfold Device.launch
  split
  · exact .inl ⟨_, _, ‹_›, rfl⟩
  · exact .inr ⟨‹_›, rfl⟩

/-- What ENG.COMPLETE can do (R141): queue the byte where DISCARD is 0, else drop it. -/
theorem Device.complete_cases (d : Device) (r : Byte) :
    (d.discard = 0 ∧ d.complete r = { d.pushRx r with busy := false }) ∨
    (d.discard ≠ 0 ∧ d.complete r = { d with discard := d.discard - 1, busy := false }) := by
  unfold Device.complete
  split
  · exact .inl ⟨‹_›, rfl⟩
  · exact .inr ⟨‹_›, rfl⟩

theorem engLaunch_next {s t : State} (h : engLaunch s = .next t) :
    s.dev.canLaunch s.cfg = true ∧ t = s.setDev (s.dev.launch s.cfg) := by
  unfold engLaunch at h
  split at h
  · exact ⟨‹_›, (Host.Outcome.next.inj h).symm⟩
  · cases h

theorem engComplete_next {s t : State} {r : Byte} (h : engComplete r s = .next t) :
    s.dev.busy = true ∧
      t = { s.setDev (s.dev.complete r) with wire := s.wire ++ [⟨s.dev.ss, s.dev.shiftTx, r⟩] } := by
  unfold engComplete at h
  split at h
  · exact ⟨‹_›, (Host.Outcome.next.inj h).symm⟩
  · cases h

/-- A pin change leaves everything of the device but the pins and FIRED. -/
theorem Device.pinChange_frame (cfg : Params) (d : Device) (p : Pin) :
    d.pinChange cfg p =
      { d with
        pinCd := (d.pinChange cfg p).pinCd
        pinExt := (d.pinChange cfg p).pinExt
        fired := (d.pinChange cfg p).fired } := by
  cases p <;> simp only [Device.pinChange, Device.togglePin] <;> split <;> rfl

theorem Device.launch_rxq (cfg : Params) (d : Device) : (d.launch cfg).rxq = d.rxq := by
  unfold Device.launch; split <;> rfl

theorem Device.pinChange_rxq (cfg : Params) (d : Device) (p : Pin) : (d.pinChange cfg p).rxq = d.rxq := by
  rw [Device.pinChange_frame]

/-- A completion takes nothing from the receive FIFO. -/
theorem Device.complete_rxq_length (d : Device) (r b : Byte) :
    d.rxq.length ≠ (b :: (d.complete r).rxq).length := by
  rcases d.complete_cases r with ⟨-, h⟩ | ⟨-, h⟩
  · rw [h]; simp only [List.length_cons, Device.pushRx_rxq, List.length_append]; omega
  · rw [h]; simp

/-! ## The bytes unsent (R18, R19) -/

@[simp] theorem Device.unsent_lenHi (d : Device) (x : Byte) : ({ d with lenHi := x } : Device).unsent = d.unsent := rfl

@[simp] theorem Device.unsent_discard (d : Device) (x : Count) : ({ d with discard := x } : Device).unsent = d.unsent :=
  rfl

@[simp] theorem Device.unsent_pushTx (d : Device) (b : Byte) : (d.pushTx b).unsent = d.unsent ++ [b] :=
  (List.append_assoc _ _ _).symm

@[simp] theorem Device.unsent_popRx (d : Device) (q : List Byte) : (d.popRx q).unsent = d.unsent := rfl

theorem Device.unsent_eq_nil (d : Device) : d.unsent = [] ↔ d.busy = false ∧ d.txq = [] := by
  unfold Device.unsent; cases d.busy <;> simp

/-- A launch from TXQ moves a byte onto the wire: still unsent, in the same place (R140). -/
theorem Device.unsent_launch {cfg : Params} {d : Device} (hb : d.busy = false) (hq : d.txq ≠ []) :
    (d.launch cfg).unsent = d.unsent := by
  rcases d.launch_cases cfg with ⟨b, q, h, e⟩ | ⟨h, -⟩
  · rw [e]; simp [Device.unsent, hb, h]
  · exact absurd h hq

/-- A completion sends the first of them (R141). -/
theorem Device.unsent_complete {d : Device} (hb : d.busy = true) (r : Byte) :
    d.unsent = d.shiftTx :: (d.complete r).unsent := by
  rcases d.complete_cases r with ⟨-, e⟩ | ⟨-, e⟩ <;> rw [e] <;> simp [Device.unsent, hb]

/-! ## Host transactions -/

theorem andThen_next {o : Out} {k : State → Out} {t : State} (h : andThen o k = .next t) :
    ∃ u, o = .next u ∧ k u = .next t := by
  cases o with
  | next u => exact ⟨u, rfl, h⟩
  | fault f => cases h
  | refused r => cases h

/-- A transaction the application context issues was allowed, and its outcome is noted. -/
theorem appIssue_next {i : Instr} {s t : State} {run : State → Out} (h : appIssue i s run = .next t) :
    s.lineBar i = none ∧ ∃ u, run s = .next u ∧ t = u.noteIssued i := by
  unfold appIssue at h
  split at h
  · cases h
  · obtain ⟨u, hu, hk⟩ := andThen_next h
    exact ⟨‹_›, u, hu, (Host.Outcome.next.inj hk).symm⟩

/-- Before the probe nothing but RD.IDENT is allowed, and nothing before BASE is bound (R108, R271). -/
theorem earlyBar_none {s : State} {b : Bool} (h : s.earlyBar b = none) :
    s.host.bound = true ∧ (s.host.probed = true ∨ b = true) := by
  unfold State.earlyBar at h
  split at h
  · next hb =>
    split at h
    · next hp => exact ⟨hb, by simpa using hp⟩
    · cases h
  · cases h

theorem lineBar_none {s : State} {i : Instr} (h : s.lineBar i = none) :
    s.host.bound = true ∧ (s.host.probed = true ∨ i = .rdIdent) ∧ s.holdBreach i = false := by
  unfold State.lineBar at h
  split at h
  · cases h
  · next he =>
    split at h
    · cases h
    · next hb =>
      obtain ⟨h1, h2⟩ := earlyBar_none he
      exact ⟨h1, by simpa using h2, by simpa using hb⟩

/-- In a procedure's read: what the board did, the note of it, and the rest. -/
theorem rd_next {i : Instr} {s t : State} {k : Byte → State → Out} (h : rd i s k = .next t) :
    s.lineBar i = none ∧
      ∃ u, hostAccess s.host.base i s = .next u ∧ k u.readData (u.noteIssued i) = .next t := by
  obtain ⟨v, hv, hk⟩ := andThen_next h
  obtain ⟨hb, u, hu, rfl⟩ := appIssue_next hv
  exact ⟨hb, u, hu, by simpa using hk⟩

/-- In a procedure's write: what the board did, the note of it, and the rest. -/
theorem wr_next {i : Instr} {s t : State} {k : State → Out} (h : wr i s k = .next t) :
    s.lineBar i = none ∧ ∃ u, hostAccess s.host.base i s = .next u ∧ k (u.noteIssued i) = .next t := by
  obtain ⟨v, hv, hk⟩ := andThen_next h
  obtain ⟨hb, u, hu, rfl⟩ := appIssue_next hv
  exact ⟨hb, u, hu, hk⟩

theorem lineError_next {e : DecodeError} {w : Bool} {s t : State} (h : lineError e w s = .next t) :
    rejected e w s = .next t := by
  unfold lineError at h
  split at h
  · split at h
    · cases h
    · exact h
  all_goals exact h

/-- What a line of the application context can do: the context was free, and the line ran the operation it
decodes to, or selected none. -/
theorem hostLine_next {c : Except DecodeError BusCycle} {w : Bool} {s t : State}
    (h : hostLine c w s = .next t) :
    s.host.inHandler = false ∧ s.host.app = .idle ∧
      ((∃ i, s.lineBar i = none ∧ ∃ u, exec i s = .next u ∧ t = u.noteIssued i) ∨
        ∃ e w', rejected e w' s = .next t) := by
  unfold hostLine at h
  split at h
  · cases h
  · next hn =>
    split at h
    · next ha =>
      refine ⟨Bool.eq_false_iff.mpr hn, ha, ?_⟩
      split at h
      · split at h
        · obtain ⟨hb, hu⟩ := appIssue_next h
          exact .inl ⟨_, hb, hu⟩
        · exact .inr ⟨_, _, lineError_next h⟩
      · exact .inr ⟨_, _, lineError_next h⟩
    · cases h

theorem boardCall_next {s t : State} {b : Bool} {a : AppState} (h : boardCall s b a = .next t) :
    s.earlyBar b = none ∧ t = s.goto a := by
  unfold boardCall at h
  split at h
  · cases h
  · exact ⟨‹_›, (Host.Outcome.next.inj h).symm⟩

theorem pollAgain_next {s t : State} {polls copied : Nat} {again : Nat → AppState}
    (h : pollAgain s polls copied again = .next t) :
    t = s.goto (again (polls + 1)) ∨ t = s.finish (.incomplete copied) := by
  unfold pollAgain at h
  split at h
  · exact .inl (Host.Outcome.next.inj h).symm
  · split at h
    · exact .inr (Host.Outcome.next.inj h).symm
    · exact .inl (Host.Outcome.next.inj h).symm

end Sys2Proof.Machine
end

