-- ==== Sys2Proof/Laws/Exec.lean ====
section
/-! SUPPORT. What an operation can do to the machine and to the device (`exec_effect`), said
once over all operations. -/

namespace Sys2Proof.Machine

/-- Everything one operation of 30_encoding.md R64 can do to the device. -/
inductive Device.AccessStep (cfg : Params) (d : Device) : Device → Prop
  | same : AccessStep cfg d d
  | lenHi (h : d.quiet = true) (x : Byte) : AccessStep cfg d { d with lenHi := x }
  | spiFreq (h : d.quiet = true) (x : Byte) : AccessStep cfg d { d with spiFreq := x }
  | ss (h : d.quiet = true) (x : Byte) : AccessStep cfg d { d with ss := x }
  | discard (h : d.quiet = true) (x : Byte) :
      AccessStep cfg d { d with discard := transferCount d.lenHi x }
  | feed (h : d.quiet = true) (x : Byte) : AccessStep cfg d { d with feed := transferCount d.lenHi x }
  | popRx (b : Byte) (q : List Byte) (h : d.rxq = b :: q) : AccessStep cfg d (d.popRx q)
  | pushTx (b : Byte) (h : d.txq.length < cfg.fifoDepth) : AccessStep cfg d (d.pushTx b)
  | idptr : AccessStep cfg d { d with idptr := d.idptr + 1 }
  | clearFired : AccessStep cfg d { d with fired := 0 }
  | armed (x : Byte) (h : armedLegal x = true) : AccessStep cfg d { d with armed := x }
  | latch : AccessStep cfg d { d with tlatch := d.tick, tlatched := true }
  | unlatch : AccessStep cfg d { d with tlatched := false }

/-- What an operation leaves alone, what it does to the device, and where a byte that leaves the receive FIFO
goes. -/
structure ExecEffect (s t : State) : Prop where
  frame : t = { s with dev := t.dev, readData := t.readData, draws := t.draws }
  device : s.dev.AccessStep s.cfg t.dev
  popped : ∀ b, s.dev.rxq = b :: t.dev.rxq → t.readData = b

/-- A queue is not itself with a byte more at its head: nothing has left it. -/
theorem not_popped {s t : State} (h : t.dev.rxq = s.dev.rxq) (b : Byte) (hb : s.dev.rxq = b :: t.dev.rxq) :
    t.readData = b := by
  rw [h] at hb
  exact absurd (congrArg List.length hb) (by simp)

theorem ExecEffect.garbled (s : State) : ExecEffect s s.garbled := ⟨rfl, .same, not_popped rfl⟩

theorem ExecEffect.refl (s : State) : ExecEffect s s := ⟨rfl, .same, not_popped rfl⟩

theorem ExecEffect.setDev {s : State} {d : Device} (h : s.dev.AccessStep s.cfg d)
    (hq : d.rxq = s.dev.rxq) : ExecEffect s (s.setDev d) := ⟨rfl, h, not_popped hq⟩

theorem ExecEffect.setDev_answer {s : State} {d : Device} (h : s.dev.AccessStep s.cfg d)
    (hq : d.rxq = s.dev.rxq) (v : Byte) : ExecEffect s ((s.setDev d).answer v) := ⟨rfl, h, not_popped hq⟩

theorem plainRead_effect {s t : State} {f : Device → Byte} (h : plainRead s f = .next t) :
    ExecEffect s t := by
  rcases plainRead_next h with rfl | rfl
  · exact ⟨rfl, .same, not_popped rfl⟩
  · exact .garbled s

theorem drawnRead_effect {s t : State} {f : Params → Device → Byte → Byte}
    (h : drawnRead s f = .next t) : ExecEffect s t := by
  rcases drawnRead_next h with rfl | rfl
  · exact ⟨rfl, .same, not_popped rfl⟩
  · exact .garbled s

theorem quietWrite_effect {s t : State} {r : Refusal} {f : Device → Device}
    (h : quietWrite s r f = .next t)
    (hf : s.dev.quiet = true → s.dev.AccessStep s.cfg (f s.dev)) (hx : (f s.dev).rxq = s.dev.rxq) :
    ExecEffect s t := by
  rcases quietWrite_next h with ⟨hq, rfl⟩ | rfl
  · exact .setDev (hf hq) hx
  · exact .refl t

theorem refusedRead_effect {s t : State} {r : Refusal} (h : refusedRead s r = .next t) :
    ExecEffect s t := by
  rw [refusedRead_next h]; exact .garbled s

theorem refusedWrite_effect {s t : State} {r : Refusal} (h : refusedWrite s r = .next t) :
    ExecEffect s t := by
  rw [refusedWrite_next h]; exact .refl s

theorem execRdIdent_effect {s t : State} (h : execRdIdent s = .next t) : ExecEffect s t := by
  rcases readAccess_next h with ⟨-, h⟩ | ⟨-, rfl⟩
  · cases h; exact .setDev_answer .idptr rfl _
  · exact .garbled s

theorem execRdFifoData_effect {s t : State} (h : execRdFifoData s = .next t) : ExecEffect s t := by
  rcases readAccess_next h with ⟨-, h⟩ | ⟨-, rfl⟩
  · split at h
    · next b q hq =>
      cases h
      exact ⟨rfl, .popRx b q hq, fun c hc => by rw [hq] at hc; exact (List.cons.inj hc).1⟩
    · cases h
  · exact .garbled s

theorem execWrFifoData_effect {s t : State} {d : Byte} (h : execWrFifoData d s = .next t) :
    ExecEffect s t := by
  rcases writeAccess_next h with ⟨-, h⟩ | ⟨-, rfl⟩
  · split at h
    · cases h; exact .setDev (.pushTx d ‹_›) rfl
    · cases h
  · exact .refl t

theorem execWrIntFired_effect {s t : State} {d : Byte} (h : execWrIntFired d s = .next t) :
    ExecEffect s t := by
  rcases plainWrite_next h with rfl | rfl
  · exact .setDev .clearFired rfl
  · exact .refl t

theorem execWrIntArmed_effect {s t : State} {d : Byte} (h : execWrIntArmed d s = .next t) :
    ExecEffect s t := by
  rcases writeAccess_next h with ⟨-, h⟩ | ⟨-, rfl⟩
  · split at h
    · cases h; exact .setDev (.armed d ‹_›) rfl
    · cases h
  · exact .refl t

/-- Whatever operation answers, it is one of `AccessStep`'s and leaves parameters, host, environment,
agenda and wire alone. -/
theorem exec_effect {i : Instr} {s t : State} (h : exec i s = .next t) : ExecEffect s t := by
  cases i with
  | rdStatus => exact drawnRead_effect h
  | rdGpio => exact drawnRead_effect h
  | rdRxHead => exact plainRead_effect h
  | rdRxTail => exact plainRead_effect h
  | rdTxHead => exact plainRead_effect h
  | rdTxTail => exact plainRead_effect h
  | rdIntFired => exact plainRead_effect h
  | rdFifoData => exact execRdFifoData_effect h
  | rdIdent => exact execRdIdent_effect h
  | wrLenHi d => unfold exec execWrLenHi at h; exact quietWrite_effect h (fun hq => .lenHi hq d) rfl
  | wrSpiFreq d => unfold exec execWrSpiFreq at h; exact quietWrite_effect h (fun hq => .spiFreq hq d) rfl
  | wrSs d => unfold exec execWrSs at h; exact quietWrite_effect h (fun hq => .ss hq d) rfl
  | wrRxDiscard d => unfold exec execWrRxDiscard at h; exact quietWrite_effect h (fun hq => .discard hq d) rfl
  | wrTxFeed d => unfold exec execWrTxFeed at h; exact quietWrite_effect h (fun hq => .feed hq d) rfl
  | wrIntFired d => exact execWrIntFired_effect (d := d) h
  | wrIntArmed d => exact execWrIntArmed_effect h
  | wrFifoData d => exact execWrFifoData_effect h
  | rdTickHi => cases h; exact .setDev_answer .latch rfl _
  | rdTickMid => cases h; exact ⟨rfl, .same, not_popped rfl⟩
  | rdTickLo => cases h; exact .setDev_answer .unlatch rfl _
  | wrTickHi d => cases h
  | wrTickMid d => cases h
  | wrTickLo d => cases h
  | rdLenHi => exact refusedRead_effect h
  | rdRxDiscard => exact refusedRead_effect h
  | rdTxFeed => exact refusedRead_effect h
  | rdSpiFreq => exact refusedRead_effect h
  | rdSs => exact refusedRead_effect h
  | rdIntArmed => exact refusedRead_effect h
  | rdReserved => exact refusedRead_effect h
  | wrStatus d => exact refusedWrite_effect h
  | wrGpio d => exact refusedWrite_effect h
  | wrRxHead d => exact refusedWrite_effect h
  | wrRxTail d => exact refusedWrite_effect h
  | wrTxHead d => exact refusedWrite_effect h
  | wrTxTail d => exact refusedWrite_effect h
  | wrIdent d => exact refusedWrite_effect h
  | wrReserved d => exact refusedWrite_effect h

theorem exec_host {i : Instr} {s t : State} (h : exec i s = .next t) : t.host = s.host := by
  rw [(exec_effect h).frame]

theorem exec_cfg {i : Instr} {s t : State} (h : exec i s = .next t) : t.cfg = s.cfg := by
  rw [(exec_effect h).frame]

theorem exec_env {i : Instr} {s t : State} (h : exec i s = .next t) : t.env = s.env := by
  rw [(exec_effect h).frame]

theorem exec_agenda {i : Instr} {s t : State} (h : exec i s = .next t) : t.agenda = s.agenda := by
  rw [(exec_effect h).frame]

theorem exec_wire {i : Instr} {s t : State} (h : exec i s = .next t) : t.wire = s.wire := by
  rw [(exec_effect h).frame]

end Sys2Proof.Machine
end

