-- ==== Sys2Proof/Laws/PerInstr.lean ====
section
/-! SUPPORT. The statements made once per operation. -/

namespace Sys2Proof.Laws

/-! ## REG_INDEX is a bijection (D1) -/

theorem orderWf_perm {o : List RegName} (h : orderWf o = true) : o.Perm defaultOrder :=
  List.isPerm_iff.mp h

theorem orderWf_length {o : List RegName} (h : orderWf o = true) : o.length = 16 :=
  (orderWf_perm h).length_eq

theorem orderWf_nodup {o : List RegName} (h : orderWf o = true) : o.Nodup :=
  (orderWf_perm h).nodup_iff.mpr (by decide)

theorem orderWf_mem {o : List RegName} (h : orderWf o = true) (r : RegName) : r ∈ o :=
  (orderWf_perm h).mem_iff.mpr (by cases r <;> decide)

/-- The register at a register's index is that register. -/
theorem regOfIndex_regIndex {o : List RegName} (h : orderWf o = true) (r : RegName) :
    regOfIndex o (regIndex o r) = r := by
  have hlt : o.idxOf r < o.length := List.idxOf_lt_length_of_mem (orderWf_mem h r)
  have h16 := orderWf_length h
  have hn : (regIndex o r).toNat = o.idxOf r := by
    simp only [regIndex, BitVec.toNat_ofNat]; omega
  rw [regOfIndex, hn, List.getD_eq_getElem _ _ hlt, List.getElem_idxOf]

/-- The index of the register at an index is that index. -/
theorem regIndex_regOfIndex {o : List RegName} (h : orderWf o = true) (i : BitVec 4) :
    regIndex o (regOfIndex o i) = i := by
  have h16 := orderWf_length h
  have hlt : i.toNat < o.length := by have := i.isLt; omega
  rw [regIndex, regOfIndex, List.getD_eq_getElem _ _ hlt, (orderWf_nodup h).idxOf_getElem, BitVec.ofNat_toNat]
  simp

/-- A register's read and write decode from its selector. -/
theorem decodeRegfile_regSelector {o : List RegName} (h : orderWf o = true) (w : Bool) (r : RegName) (d : Byte) :
    decodeRegfile o (BitVec.ofBool w ++ regIndex o r ++ 0#2) d = .ok (if w then writeOf d r else readOf r) := by
  have e1 : ∀ (x : BitVec 4), (BitVec.ofBool w ++ x ++ 0#2).extractLsb' 0 2 = 0#2 := by
    intro x; cases w <;> revert x <;> decide
  have e2 : ∀ (x : BitVec 4), (BitVec.ofBool w ++ x ++ 0#2).extractLsb' 2 4 = x := by
    intro x; cases w <;> revert x <;> decide
  have e3 : ∀ (x : BitVec 4), (BitVec.ofBool w ++ x ++ 0#2).getLsbD 6 = w := by
    intro x; cases w <;> revert x <;> decide
  simp only [decodeRegfile, e1, e2, e3, if_true, regOfIndex_regIndex h]

/-- Decoding the transaction of an operation gives the operation back, data byte and all, whatever REG_INDEX
(R60 to R64, D1). -/
def RoundTrip.Statement (i : Instr) : Prop := ∀ o, orderWf o = true → decode o (encode o i) = .ok i

theorem RoundTrip.rdStatus : RoundTrip.Statement .rdStatus :=
  fun _ h => decodeRegfile_regSelector h false .status 0
theorem RoundTrip.rdLenHi : RoundTrip.Statement .rdLenHi :=
  fun _ h => decodeRegfile_regSelector h false .lenHi 0
theorem RoundTrip.rdGpio : RoundTrip.Statement .rdGpio :=
  fun _ h => decodeRegfile_regSelector h false .gpio 0
theorem RoundTrip.rdRxHead : RoundTrip.Statement .rdRxHead :=
  fun _ h => decodeRegfile_regSelector h false .rxHead 0
theorem RoundTrip.rdRxTail : RoundTrip.Statement .rdRxTail :=
  fun _ h => decodeRegfile_regSelector h false .rxTail 0
theorem RoundTrip.rdTxHead : RoundTrip.Statement .rdTxHead :=
  fun _ h => decodeRegfile_regSelector h false .txHead 0
theorem RoundTrip.rdTxTail : RoundTrip.Statement .rdTxTail :=
  fun _ h => decodeRegfile_regSelector h false .txTail 0
theorem RoundTrip.rdRxDiscard : RoundTrip.Statement .rdRxDiscard :=
  fun _ h => decodeRegfile_regSelector h false .rxDiscard 0
theorem RoundTrip.rdTxFeed : RoundTrip.Statement .rdTxFeed :=
  fun _ h => decodeRegfile_regSelector h false .txFeed 0
theorem RoundTrip.rdSpiFreq : RoundTrip.Statement .rdSpiFreq :=
  fun _ h => decodeRegfile_regSelector h false .spiFreq 0
theorem RoundTrip.rdSs : RoundTrip.Statement .rdSs :=
  fun _ h => decodeRegfile_regSelector h false .ss 0
theorem RoundTrip.rdIntFired : RoundTrip.Statement .rdIntFired :=
  fun _ h => decodeRegfile_regSelector h false .intFired 0
theorem RoundTrip.rdIntArmed : RoundTrip.Statement .rdIntArmed :=
  fun _ h => decodeRegfile_regSelector h false .intArmed 0
theorem RoundTrip.rdFifoData : RoundTrip.Statement .rdFifoData :=
  fun _ h => decodeRegfile_regSelector h false .fifoData 0
theorem RoundTrip.rdIdent : RoundTrip.Statement .rdIdent :=
  fun _ h => decodeRegfile_regSelector h false .ident 0
theorem RoundTrip.rdReserved : RoundTrip.Statement .rdReserved :=
  fun _ h => decodeRegfile_regSelector h false .reserved 0
theorem RoundTrip.wrStatus (d : Byte) : RoundTrip.Statement (.wrStatus d) :=
  fun _ h => decodeRegfile_regSelector h true .status d
theorem RoundTrip.wrLenHi (d : Byte) : RoundTrip.Statement (.wrLenHi d) :=
  fun _ h => decodeRegfile_regSelector h true .lenHi d
theorem RoundTrip.wrGpio (d : Byte) : RoundTrip.Statement (.wrGpio d) :=
  fun _ h => decodeRegfile_regSelector h true .gpio d
theorem RoundTrip.wrRxHead (d : Byte) : RoundTrip.Statement (.wrRxHead d) :=
  fun _ h => decodeRegfile_regSelector h true .rxHead d
theorem RoundTrip.wrRxTail (d : Byte) : RoundTrip.Statement (.wrRxTail d) :=
  fun _ h => decodeRegfile_regSelector h true .rxTail d
theorem RoundTrip.wrTxHead (d : Byte) : RoundTrip.Statement (.wrTxHead d) :=
  fun _ h => decodeRegfile_regSelector h true .txHead d
theorem RoundTrip.wrTxTail (d : Byte) : RoundTrip.Statement (.wrTxTail d) :=
  fun _ h => decodeRegfile_regSelector h true .txTail d
theorem RoundTrip.wrRxDiscard (d : Byte) : RoundTrip.Statement (.wrRxDiscard d) :=
  fun _ h => decodeRegfile_regSelector h true .rxDiscard d
theorem RoundTrip.wrTxFeed (d : Byte) : RoundTrip.Statement (.wrTxFeed d) :=
  fun _ h => decodeRegfile_regSelector h true .txFeed d
theorem RoundTrip.wrSpiFreq (d : Byte) : RoundTrip.Statement (.wrSpiFreq d) :=
  fun _ h => decodeRegfile_regSelector h true .spiFreq d
theorem RoundTrip.wrSs (d : Byte) : RoundTrip.Statement (.wrSs d) :=
  fun _ h => decodeRegfile_regSelector h true .ss d
theorem RoundTrip.wrIntFired (d : Byte) : RoundTrip.Statement (.wrIntFired d) :=
  fun _ h => decodeRegfile_regSelector h true .intFired d
theorem RoundTrip.wrIntArmed (d : Byte) : RoundTrip.Statement (.wrIntArmed d) :=
  fun _ h => decodeRegfile_regSelector h true .intArmed d
theorem RoundTrip.wrFifoData (d : Byte) : RoundTrip.Statement (.wrFifoData d) :=
  fun _ h => decodeRegfile_regSelector h true .fifoData d
theorem RoundTrip.wrIdent (d : Byte) : RoundTrip.Statement (.wrIdent d) :=
  fun _ h => decodeRegfile_regSelector h true .ident d
theorem RoundTrip.wrReserved (d : Byte) : RoundTrip.Statement (.wrReserved d) :=
  fun _ h => decodeRegfile_regSelector h true .reserved d
theorem RoundTrip.rdTickHi : RoundTrip.Statement .rdTickHi := fun _ _ => rfl
theorem RoundTrip.rdTickMid : RoundTrip.Statement .rdTickMid := fun _ _ => rfl
theorem RoundTrip.rdTickLo : RoundTrip.Statement .rdTickLo := fun _ _ => rfl
theorem RoundTrip.wrTickHi (d : Byte) : RoundTrip.Statement (.wrTickHi d) := fun _ _ => rfl
theorem RoundTrip.wrTickMid (d : Byte) : RoundTrip.Statement (.wrTickMid d) := fun _ _ => rfl
theorem RoundTrip.wrTickLo (d : Byte) : RoundTrip.Statement (.wrTickLo d) := fun _ _ => rfl

end Sys2Proof.Laws
end

