-- ==== Sys2Proof/Laws/Step.lean ====
section
/-! SUPPORT. What one step of the machine can do to the board (`step_effect`), said once over all events. -/

namespace Sys2Proof.Machine

/-- Everything one step of any agent can do to the device (R66 and R64). -/
inductive Device.AnyStep (cfg : Params) (d : Device) : Device → Prop
  | access {d' : Device} (h : d.AccessStep cfg d') : AnyStep cfg d d'
  | launch (h : d.canLaunch cfg = true) : AnyStep cfg d (d.launch cfg)
  | complete (r : Byte) (h : d.busy = true) : AnyStep cfg d (d.complete r)
  | pin (p : Pin) : AnyStep cfg d (d.pinChange cfg p)
  | tick : AnyStep cfg d { d with tick := d.tick + 1 }

/-- The step left the board alone: parameters, device, presence, wire, and the byte last read. -/
structure BoardFrame (s t : State) : Prop where
  cfg : t.cfg = s.cfg
  dev : t.dev = s.dev
  present : t.env.boardPresent = s.env.boardPresent
  wire : t.wire = s.wire
  readData : t.readData = s.readData

/-- What a step does to the board, the wire aside; a byte that leaves the receive FIFO has been returned. -/
structure BoardEffect (s t : State) : Prop where
  cfg : t.cfg = s.cfg
  present : t.env.boardPresent = s.env.boardPresent
  dev : s.dev.AnyStep s.cfg t.dev
  popped : ∀ b, s.dev.rxq = b :: t.dev.rxq → t.readData = b

theorem BoardFrame.rfl' (s : State) : BoardFrame s s := ⟨rfl, rfl, rfl, rfl, rfl⟩

/-- A step that leaves parameters, device and presence alone. -/
theorem BoardEffect.same {s t : State} (hc : t.cfg = s.cfg) (hd : t.dev = s.dev)
    (hp : t.env.boardPresent = s.env.boardPresent) : BoardEffect s t :=
  ⟨hc, hp, hd ▸ .access .same, not_popped (by rw [hd])⟩

theorem BoardFrame.effect {s t : State} (h : BoardFrame s t) : BoardEffect s t :=
  .same h.cfg h.dev h.present

theorem BoardFrame.trans {s t u : State} (h : BoardFrame s t) (k : BoardFrame t u) : BoardFrame s u :=
  ⟨k.cfg.trans h.cfg, k.dev.trans h.dev, k.present.trans h.present, k.wire.trans h.wire,
    k.readData.trans h.readData⟩

theorem BoardEffect.trans_frame {s t u : State} (h : BoardEffect s t) (k : BoardFrame t u) :
    BoardEffect s u :=
  ⟨k.cfg.trans h.cfg, k.present.trans h.present, k.dev ▸ h.dev, by rw [k.dev, k.readData]; exact h.popped⟩

theorem exec_board {i : Instr} {s t : State} (h : exec i s = .next t) : BoardEffect s t :=
  ⟨exec_cfg h, by rw [exec_env h], .access (exec_effect h).device, (exec_effect h).popped⟩

theorem rejected_board {e : DecodeError} {w : Bool} {s t : State} (h : rejected e w s = .next t) :
    BoardEffect s t := by
  unfold rejected at h
  split at h
  · split at h
    · rw [refusedWrite_next h]; exact .same rfl rfl rfl
    · rw [refusedRead_next h]; exact .same rfl rfl rfl
  · cases h
  · cases h
  · split at h
    · cases h; exact .same rfl rfl rfl
    · cases h; exact .same rfl rfl rfl

theorem runCycle_board {c : BusCycle} {s t : State} (h : runCycle c s = .next t) : BoardEffect s t := by
  unfold runCycle at h
  split at h
  · exact exec_board h
  · exact rejected_board h

theorem runAccess_board {a : Access} {s t : State} (h : runAccess a s = .next t) : BoardEffect s t := by
  unfold runAccess at h
  split at h
  · exact runCycle_board h
  · exact rejected_board h

/-- A transaction, whatever it selects, leaves all but the device, the byte read and the draws alone. -/
theorem rejected_frame {e : DecodeError} {w : Bool} {s t : State} (h : rejected e w s = .next t) :
    t = { s with readData := t.readData, draws := t.draws } := by
  unfold rejected at h
  split at h
  · split at h
    · rw [refusedWrite_next h]
    · rw [refusedRead_next h]; rfl
  · cases h
  · cases h
  · split at h
    · cases h; rfl
    · cases h; rfl

theorem hostAccess_frame {b : Addr} {i : Instr} {s t : State} (h : hostAccess b i s = .next t) :
    t = { s with dev := t.dev, readData := t.readData, draws := t.draws } := by
  unfold hostAccess runAccess at h
  split at h
  · unfold runCycle at h
    split at h
    · exact (exec_effect h).frame
    · rw [rejected_frame h]
  · rw [rejected_frame h]

/-- A host procedure's transaction does not change the host. -/
theorem hostAccess_host {b : Addr} {i : Instr} {s t : State} (h : hostAccess b i s = .next t) :
    t.host = s.host := by rw [hostAccess_frame h]

theorem hostAccess_cfg {b : Addr} {i : Instr} {s t : State} (h : hostAccess b i s = .next t) :
    t.cfg = s.cfg := by rw [hostAccess_frame h]

theorem hostAccess_board {b : Addr} {i : Instr} {s t : State} (h : hostAccess b i s = .next t) :
    BoardEffect s t := runAccess_board h

theorem BoardFrame.setHost (s : State) (x : HostState) : BoardFrame s (s.setHost x) :=
  ⟨rfl, rfl, rfl, rfl, rfl⟩

theorem BoardFrame.noteIssued (s : State) (i : Instr) : BoardFrame s (s.noteIssued i) :=
  ⟨by simp, by simp, by simp, by simp, by simp⟩

theorem BoardFrame.goto (s : State) (a : AppState) : BoardFrame s (s.goto a) := ⟨rfl, rfl, rfl, rfl, rfl⟩

theorem BoardFrame.finish (s : State) (r : Result) : BoardFrame s (s.finish r) := ⟨rfl, rfl, rfl, rfl, rfl⟩

theorem BoardFrame.wallClock (s : State) : BoardFrame s s.wallClock.2 := by
  unfold State.wallClock
  split <;> exact ⟨rfl, rfl, rfl, rfl, rfl⟩

theorem BoardFrame.probeDone (s : State) (v : ProbeVerdict) : BoardFrame s (s.probeDone v) := by
  cases v <;> exact ⟨rfl, rfl, rfl, rfl, rfl⟩

theorem pollAgain_board {s t : State} {p c : Nat} {again : Nat → AppState}
    (h : pollAgain s p c again = .next t) : BoardFrame s t := by
  rcases pollAgain_next h with rfl | rfl
  · exact .goto _ _
  · exact .finish _ _

/-- A procedure's transaction does to the board what the operation does, if the rest leaves it alone. -/
theorem rd_board {i : Instr} {s t : State} {k : Byte → State → Out} (h : rd i s k = .next t)
    (hk : ∀ v u, k v u = .next t → BoardFrame u t) : BoardEffect s t := by
  obtain ⟨-, u, hu, ht⟩ := rd_next h
  exact (hostAccess_board hu).trans_frame ((BoardFrame.noteIssued u i).trans (hk _ _ ht))

theorem wr_board {i : Instr} {s t : State} {k : State → Out} (h : wr i s k = .next t)
    (hk : ∀ u, k u = .next t → BoardFrame u t) : BoardEffect s t := by
  obtain ⟨-, u, hu, ht⟩ := wr_next h
  exact (hostAccess_board hu).trans_frame ((BoardFrame.noteIssued u i).trans (hk _ ht))

theorem goto_board {u t : State} {a : AppState}
    (h : (Host.Outcome.next (u.goto a) : Out) = .next t) : BoardFrame u t := by
  cases h; exact .goto _ _

theorem finish_board {u t : State} {r : Result}
    (h : (Host.Outcome.next (u.finish r) : Out) = .next t) : BoardFrame u t := by
  cases h; exact .finish _ _

theorem probeStep_board {w : List Byte} {s t : State} (h : probeStep w s = .next t) :
    BoardEffect s t := by
  simp only [probeStep] at h
  refine rd_board h fun v u hk => ?_
  split at hk
  · exact goto_board hk
  · cases hk; exact .probeDone _ _

theorem spiReadStep_board {pc : ReadPc} {v : ReadVars} {s t : State}
    (h : spiReadStep pc v s = .next t) : BoardEffect s t := by
  cases pc with
  | lenHi => exact wr_board h fun u hk => goto_board hk
  | feed => exact wr_board h fun u hk => goto_board hk
  | head =>
    simp only [spiReadStep] at h
    refine rd_board h fun x u hk => ?_
    split at hk
    · exact finish_board hk
    · exact goto_board hk
  | poll =>
    simp only [spiReadStep] at h
    refine rd_board h fun x u hk => ?_
    split at hk
    · exact pollAgain_board hk
    · exact goto_board hk
  | copy =>
    simp only [spiReadStep] at h
    refine rd_board h fun x u hk => ?_
    split at hk
    · split at hk
      · exact finish_board hk
      · exact goto_board hk
    · exact goto_board hk

theorem spiRead1Step_board {pc : Read1Pc} {s t : State} (h : spiRead1Step pc s = .next t) :
    BoardEffect s t := by
  cases pc with
  | lenHi => exact wr_board h fun u hk => goto_board hk
  | feed => exact wr_board h fun u hk => goto_board hk
  | head =>
    simp only [spiRead1Step] at h
    exact rd_board h fun x u hk => goto_board hk
  | spin hd p =>
    simp only [spiRead1Step] at h
    refine rd_board h fun x u hk => ?_
    split at hk
    · exact pollAgain_board hk
    · exact goto_board hk
  | data =>
    simp only [spiRead1Step] at h
    exact rd_board h fun x u hk => finish_board hk

theorem spiWriteStep_board {pc : WritePc} {v : WriteVars} {s t : State}
    (h : spiWriteStep pc v s = .next t) : BoardEffect s t := by
  cases pc with
  | lenHi => exact wr_board h fun u hk => goto_board hk
  | discard => exact wr_board h fun u hk => goto_board hk
  | tail =>
    simp only [spiWriteStep] at h
    exact rd_board h fun x u hk => goto_board hk
  | poll =>
    simp only [spiWriteStep] at h
    refine rd_board h fun x u hk => ?_
    split at hk
    · exact pollAgain_board hk
    · exact goto_board hk
  | push =>
    simp only [spiWriteStep] at h
    refine wr_board h fun u hk => ?_
    split at hk
    · exact goto_board hk
    · exact goto_board hk
  | status =>
    simp only [spiWriteStep] at h
    refine rd_board h fun x u hk => ?_
    split at hk
    · exact finish_board hk
    · exact pollAgain_board hk

theorem spiWrite1Step_board {pc : Write1Pc} {b : Byte} {s t : State}
    (h : spiWrite1Step pc b s = .next t) : BoardEffect s t := by
  cases pc with
  | lenHi => exact wr_board h fun u hk => goto_board hk
  | discard => exact wr_board h fun u hk => goto_board hk
  | tail =>
    simp only [spiWrite1Step] at h
    exact rd_board h fun x u hk => goto_board hk
  | spin tl p =>
    simp only [spiWrite1Step] at h
    refine rd_board h fun x u hk => ?_
    split at hk
    · exact goto_board hk
    · exact pollAgain_board hk
  | data => exact wr_board h fun u hk => goto_board hk
  | status p =>
    simp only [spiWrite1Step] at h
    refine rd_board h fun x u hk => ?_
    split at hk
    · exact finish_board hk
    · exact pollAgain_board hk

theorem ticksStep_board {pc : TickPc} {s t : State} {next : TickPc → AppState}
    {k : Tick → State → Out} (h : ticksStep pc s next k = .next t)
    (hk : ∀ v u, k v u = .next t → BoardFrame u t) : BoardEffect s t := by
  cases pc with
  | hi =>
    simp only [ticksStep] at h
    exact rd_board h fun x u hg => goto_board hg
  | mid a =>
    simp only [ticksStep] at h
    exact rd_board h fun x u hg => goto_board hg
  | lo a b =>
    simp only [ticksStep] at h
    exact rd_board h fun x u hg => hk _ _ hg

theorem waitStep_board {s t : State} {k : State → Out} (h : waitStep s k = .next t)
    (hk : ∀ u, k u = .next t → BoardFrame u t) : BoardEffect s t := by
  unfold waitStep at h
  split at h
  · exact ((BoardFrame.setHost _ _).trans (hk _ h)).effect
  · cases h

theorem delayStep_board {n : Nat} {dl : Option Tick} {pc : TickPc} {s t : State}
    (h : delayStep n dl pc s = .next t) : BoardEffect s t := by
  refine ticksStep_board h fun v u hk => ?_
  split at hk
  · exact goto_board hk
  · split at hk
    · exact finish_board hk
    · exact goto_board hk

theorem calibrateStep_board {pc : CalPc} {s t : State} (h : calibrateStep pc s = .next t) :
    BoardEffect s t := by
  cases pc with
  | disablePreemption => cases h; exact BoardFrame.effect ⟨rfl, rfl, rfl, rfl, rfl⟩
  | sampleBefore => cases h; exact ((BoardFrame.wallClock s).trans (.goto _ _)).effect
  | loop t0 => cases h; exact (BoardFrame.goto _ _).effect
  | sampleAfter t0 => cases h; exact ((BoardFrame.wallClock s).trans (.goto _ _)).effect
  | enablePreemption t0 t1 => cases h; exact BoardFrame.effect ⟨rfl, rfl, rfl, rfl, rfl⟩
  | decide m =>
    unfold calibrateStep at h
    dsimp only at h
    split at h
    · split at h
      · cases h; exact BoardFrame.effect ⟨rfl, rfl, rfl, rfl, rfl⟩
      · cases h; exact BoardFrame.effect ⟨rfl, rfl, rfl, rfl, rfl⟩
    · cases h

theorem waitDeadlineStep_board {n : Nat} {sigs : List Nat} {s t : State}
    (h : waitDeadlineStep n sigs s = .next t) : BoardEffect s t := by
  unfold waitDeadlineStep at h
  dsimp only at h
  split at h
  · cases h; exact BoardFrame.effect ⟨rfl, rfl, rfl, rfl, rfl⟩
  · split at h
    · cases h; exact BoardFrame.effect ⟨rfl, rfl, rfl, rfl, rfl⟩
    · split at h
      · cases h; exact BoardFrame.effect ⟨rfl, rfl, rfl, rfl, rfl⟩
      · cases h

theorem resetInterruptStep_board {m : Option Byte} {s t : State}
    (h : resetInterruptStep m s = .next t) : BoardEffect s t := by
  cases m with
  | none => exact (goto_board h).effect
  | some m => exact wr_board h fun u hk => finish_board hk

theorem shortWaitStep_board {s t : State} (h : shortWaitStep s = .next t) : BoardEffect s t := by
  unfold shortWaitStep at h
  split at h
  · cases h; exact BoardFrame.effect ⟨rfl, rfl, rfl, rfl, rfl⟩
  · cases h

theorem openTimerStep_board {s t : State} (h : openTimerStep s = .next t) : BoardEffect s t := by
  unfold openTimerStep at h
  split at h
  · cases h; exact BoardFrame.effect ⟨rfl, rfl, rfl, rfl, rfl⟩
  · exact (finish_board h).effect

/-- The application context's step does to the board what one operation can do. -/
theorem procStep_board {s t : State} (h : procStep s = .next t) : BoardEffect s t := by
  unfold procStep at h
  split at h
  · cases h
  · cases h; exact BoardFrame.effect ⟨rfl, rfl, rfl, rfl, rfl⟩
  · cases h; exact BoardFrame.effect ⟨rfl, rfl, rfl, rfl, rfl⟩
  · exact probeStep_board h
  · cases h; exact BoardFrame.effect ⟨rfl, rfl, rfl, rfl, rfl⟩
  · cases h; exact BoardFrame.effect ⟨rfl, rfl, rfl, rfl, rfl⟩
  · exact wr_board h fun u hk => finish_board hk
  · exact wr_board h fun u hk => finish_board hk
  · exact resetInterruptStep_board h
  · exact waitStep_board h fun u hk => finish_board hk
  · exact waitStep_board h fun u hk => goto_board hk
  · exact rd_board h fun x u hk => finish_board hk
  · exact spiReadStep_board h
  · exact spiRead1Step_board h
  · exact spiWriteStep_board h
  · exact spiWrite1Step_board h
  · exact ticksStep_board h fun x u hk => finish_board hk
  · exact delayStep_board h
  · exact calibrateStep_board h
  · exact shortWaitStep_board h
  · exact wr_board h fun u hk => finish_board hk
  · exact wr_board h fun u hk => goto_board hk
  · exact openTimerStep_board h
  · cases h; exact BoardFrame.effect ⟨rfl, rfl, rfl, rfl, rfl⟩
  · exact waitDeadlineStep_board h

theorem boardCall_board {s t : State} {b : Bool} {a : AppState} (h : boardCall s b a = .next t) :
    BoardFrame s t := by
  rw [(boardCall_next h).2]; exact .goto _ _

theorem probedCall_board {s t : State} {a : AppState} (h : probedCall s a = .next t) :
    BoardFrame s t := boardCall_board h

theorem callCalibrate_board {s t : State} (h : callCalibrate s = .next t) : BoardFrame s t := by
  unfold callCalibrate at h
  split at h
  · split at h
    · cases h; exact ⟨rfl, rfl, rfl, rfl, rfl⟩
    · cases h; exact ⟨rfl, rfl, rfl, rfl, rfl⟩
  · cases h

/-- Starting a procedure leaves the board alone. -/
theorem enter_board {p : Call} {s t : State} (h : enter p s = .next t) : BoardFrame s t := by
  cases p with
  | init b n g => exact goto_board h
  | destroy => exact goto_board h
  | probe => exact boardCall_board h
  | register => exact probedCall_board h
  | deregister => exact goto_board h
  | waitSignal => exact goto_board h
  | calibrate => exact callCalibrate_board h
  | openTimer => exact goto_board h
  | closeTimer n => exact goto_board h
  | spiWrite buf =>
    unfold enter at h; dsimp only at h; split at h
    · exact probedCall_board h
    · cases h
  | delay n =>
    unfold enter at h; dsimp only at h; split at h
    · exact probedCall_board h
    · cases h
  | shortWait =>
    unfold enter at h; dsimp only at h; split at h
    · cases h
    · exact goto_board h
  | waitDeadline n us sigs =>
    unfold enter at h; dsimp only at h; split at h
    · cases h; exact ⟨rfl, rfl, rfl, rfl, rfl⟩
    · cases h
  | arm => exact probedCall_board h
  | disarm => exact probedCall_board h
  | resetInterrupt => exact probedCall_board h
  | consume => exact probedCall_board h
  | pinState => exact probedCall_board h
  | spiRead n => exact probedCall_board h
  | spiRead1 => exact probedCall_board h
  | spiWrite1 b => exact probedCall_board h
  | readTicks => exact probedCall_board h
  | select v => exact probedCall_board h
  | deselect => exact probedCall_board h

theorem startCall_board {ctx : Context} {p : Call} {s t : State} (h : startCall ctx p s = .next t) :
    BoardFrame s t := by
  unfold startCall at h
  split at h
  · cases h
  · split at h
    · cases h
    · split at h
      · exact enter_board h
      · cases h

theorem handlerStep_board {s t : State} (h : handlerStep s = .next t) : BoardEffect s t := by
  unfold handlerStep at h
  split at h
  · cases h
  · obtain ⟨u, hu, hk⟩ := andThen_next h
    exact (hostAccess_board hu).trans_frame (by cases hk; exact ⟨rfl, rfl, rfl, rfl, rfl⟩)
  · obtain ⟨u, hu, hk⟩ := andThen_next h
    exact (hostAccess_board hu).trans_frame (by cases hk; exact ⟨rfl, rfl, rfl, rfl, rfl⟩)
  · cases h; exact BoardFrame.effect ⟨rfl, rfl, rfl, rfl, rfl⟩

theorem hostLine_board {c : Except DecodeError BusCycle} {w : Bool} {s t : State}
    (h : hostLine c w s = .next t) : BoardEffect s t := by
  rcases (hostLine_next h).2.2 with ⟨i, -, u, hu, rfl⟩ | ⟨e, w', hr⟩
  · exact (exec_board hu).trans_frame (.noteIssued u i)
  · exact rejected_board hr

/-- One event does to the board what one operation or one agent's step can do. -/
theorem runEvent_board {e : Event} {s t : State} (h : runEvent e s = .next t) : BoardEffect s t := by
  cases e with
  | bus c => exact hostLine_board (c := .ok c) h
  | access a => exact hostLine_board (c := decodeAccess s.placement a) h
  | engLaunch =>
    obtain ⟨hc, rfl⟩ := engLaunch_next h
    exact ⟨rfl, rfl, .launch hc, not_popped (Device.launch_rxq _ _)⟩
  | engComplete r =>
    obtain ⟨hb, rfl⟩ := engComplete_next h
    exact ⟨rfl, rfl, .complete r hb, fun b hq => absurd (congrArg List.length hq) (Device.complete_rxq_length _ _ _)⟩
  | pinChange p => cases h; exact ⟨rfl, rfl, .pin p, not_popped (Device.pinChange_rxq _ _ _)⟩
  | tickInc => cases h; exact ⟨rfl, rfl, .tick, not_popped rfl⟩
  | irqDispatch =>
    unfold runEvent irqDispatch at h; dsimp only at h; split at h
    · cases h; exact BoardFrame.effect ⟨rfl, rfl, rfl, rfl, rfl⟩
    · cases h
  | irqSpurious =>
    unfold runEvent irqSpurious at h; dsimp only at h; split at h
    · cases h; exact BoardFrame.effect ⟨rfl, rfl, rfl, rfl, rfl⟩
    · cases h
  | handlerStep => exact handlerStep_board h
  | call ctx p => exact (startCall_board h).effect
  | appStep =>
    unfold runEvent appStep at h; dsimp only at h; split at h
    · cases h
    · exact procStep_board h
  | deadline =>
    unfold runEvent deadlinePasses at h; dsimp only at h; split at h
    · split at h
      · cases h
      · cases h; exact BoardFrame.effect ⟨rfl, rfl, rfl, rfl, rfl⟩
    · cases h
  | signal n => cases h; exact BoardFrame.effect ⟨rfl, rfl, rfl, rfl, rfl⟩

theorem freeStep_cases {s t : State} (h : freeStep s = .next t) :
    t = s.drawn ∨ runEvent (agentEvent s (Config.schedule s.draws)) s.drawn = .next t := by
  unfold freeStep at h
  split at h
  · exact .inl (Host.Outcome.next.inj h).symm
  · exact .inr h

/-- Where a step's next state comes from: the agenda's next event, or an event of the free schedule. -/
theorem step_cases {s t : State} (h : step s = .next t) :
    (∃ e rest, s.agenda = e :: rest ∧ runEvent e { s with agenda := rest } = .next t) ∨
    (s.agenda = [] ∧
      (t = s.drawn ∨ runEvent (agentEvent s (Config.schedule s.draws)) s.drawn = .next t)) := by
  unfold step nextStep at h
  split at h
  · exact .inl ⟨_, _, ‹_›, h⟩
  · exact .inr ⟨‹_›, freeStep_cases h⟩

/-- Whatever a step does, it does to the board what one operation or one agent's step can do. -/
theorem step_effect {s t : State} (h : step s = .next t) : BoardEffect s t := by
  rcases step_cases h with ⟨e, rest, -, h⟩ | ⟨-, rfl | h⟩
  · have := runEvent_board h
    exact ⟨this.cfg, this.present, this.dev, this.popped⟩
  · exact BoardFrame.effect ⟨rfl, rfl, rfl, rfl, rfl⟩
  · have := runEvent_board h
    exact ⟨this.cfg, this.present, this.dev, this.popped⟩

end Sys2Proof.Machine
end

