-- ==== Sys2Proof/Tests/Slice0.lean ====
section
/-! SUPPORT. Tests on a small board. Expected results are the spec's: 95_test_vectors.md (named section by
section below), 30_encoding.md R64, or hand calculation from the rule named. The theorems `meets_…` show
that the hypotheses of the statements of Certificates/Slice0 can be met. -/

namespace Sys2Proof.Tests

open Sys2Proof.Machine

/-! ## A small board -/

/-- Where the test board answers. -/
def place : Placement := ⟨0x00400000, defaultOrder, 0x1000, 0x1001, 0x1002⟩

/-- The same place, STATUS and LEN_HI exchanged in REG_INDEX (D1). -/
def swappedPlace : Placement := { place with order := .lenHi :: .status :: defaultOrder.drop 2 }

/-- The parameters of 95_test_vectors.md's conventions: masks 0x01, 0x01, 0x02, firmware 1.2.3, depth 4. -/
def board : Params where
  place := place
  irqSelector := .two
  defaultBase := 0x00400000
  defaultIrqLine := .two
  stRxdEmptyMask := 0x01
  pinCdMask := 0x01
  pinExtMask := 0x02
  latchWhenDisarmed := false
  fifoDepth := 4
  dummyTxByte := 0xFF
  fwMajor := 1
  fwMinor := 2
  fwPatch := 3
  tickHz := 1000
  ssIdle := 0x00
  calMinScale := 1000
  calMaxScale := 1024000
  calFallbackIters := 100
  retryBound := none

/-- A quiet device. -/
def quietDev : Device where
  lenHi := 0
  feed := 0
  discard := 0
  rxq := []
  rxHead := 0
  rxTail := 0
  txq := []
  txHead := 0
  txTail := 0
  busy := false
  shiftTx := 0
  spiFreq := 0
  ss := 0
  pinCd := false
  pinExt := false
  fired := 0
  armed := 0
  idptr := 0
  tick := 0
  tlatch := 0
  tlatched := false

/-- A host that has bound the board at 0x00400000, probed and calibrated it, and is in no procedure. -/
def idleHost : HostState where
  base := 0x00400000
  irqLine := .two
  bound := true
  ictx := { boardAddr := 0x00400000, signalId := 7, lastFired := 0 }
  iters := some 5
  cal := .done
  probed := true
  version := { major := 1, minor := 2, patch := 3 }
  registered := true
  handler := .idle
  preemptOff := false
  signals := []
  holdOwed := false
  timer := { handles := [], next := 0, request := none }
  app := .idle
  result := .none

/-- The machine with that board and host. -/
def machine (d : Device) (h : HostState := idleHost) (agenda : List Event := []) : State where
  cfg := board
  dev := d
  host := h
  env := { boardPresent := true, clock := [], timerAvailable := true }
  readData := 0
  draws := 0
  agenda := agenda
  wire := []

/-- The device after an operation; none where it stops. -/
def devAfter (o : Out) : Option Device :=
  match o with
  | .next t => some t.dev
  | .fault _ | .refused _ => none

/-- The byte an operation returned; none where it stops. -/
def byteAfter (o : Out) : Option Byte :=
  match o with
  | .next t => some t.readData
  | .fault _ | .refused _ => none

/-- The refusal of a step; none where it completes. -/
def stopOf (o : Out) : Option Refusal :=
  match o with
  | .refused r => some r
  | .next _ | .fault _ => none

/-! ## WellFormed: an ill-formed term for each check (R4, R43, R65, R152, R206) -/

theorem test_params_wf : board.wf = true := by decide
theorem test_params_depth_255_wf : ({ board with fifoDepth := 255 } : Params).wf = true := by decide
theorem test_params_two_bit_status_mask : ({ board with stRxdEmptyMask := 0x03 } : Params).wf = false := by decide
theorem test_params_tick_in_window :
    ({ board with place := { place with tickMid := 0x00400010 } } : Params).wf = false := by decide
theorem test_params_repeated_register :
    ({ board with place := { place with order := .lenHi :: defaultOrder.tail } } : Params).wf = false := by decide
theorem test_params_other_reg_index_wf : ({ board with place := swappedPlace } : Params).wf = true := by decide
theorem test_params_zero_cd_mask : ({ board with pinCdMask := 0x00 } : Params).wf = false := by decide
theorem test_params_two_bit_ext_mask : ({ board with pinExtMask := 0x06 } : Params).wf = false := by decide
theorem test_params_equal_pin_masks : ({ board with pinExtMask := 0x01 } : Params).wf = false := by decide
theorem test_params_depth_zero : ({ board with fifoDepth := 0 } : Params).wf = false := by decide
theorem test_params_depth_256 : ({ board with fifoDepth := 256 } : Params).wf = false := by decide
theorem test_params_min_scale_999 : ({ board with calMinScale := 999 } : Params).wf = false := by decide
theorem test_params_max_below_min : ({ board with calMaxScale := 999 } : Params).wf = false := by decide
theorem test_params_no_fallback : ({ board with calFallbackIters := 0 } : Params).wf = false := by decide
theorem test_armed_value_ill_formed : (Instr.wrIntArmed 0x01).wf = false := by decide
theorem test_armed_value_well_formed : (Instr.wrIntArmed 0xFF).wf = true := by decide
theorem test_lane_1_selector_ill_formed : (Selector.regfile 0x35).wf = false := by decide
theorem test_tick_3_selector_ill_formed : (Selector.tickport 0x7).wf = false := by decide
theorem test_word_access_ill_formed : (⟨false, 0x00400000, 4, 0⟩ : Access).wf = false := by decide
theorem test_delay_2_pow_23_ill_formed : (Call.delay (2 ^ 23)).wf = false := by decide
theorem test_write_of_65536_bytes_ill_formed : (Call.spiWrite (List.replicate 65536 0)).wf = false := by
  simp only [Call.wf, List.length_replicate]; decide
theorem test_placement_wf : place.wf = true := by decide
theorem test_placement_tick_in_window : ({ place with tickHi := 0x0040003F } : Placement).wf = false := by decide
theorem test_placement_shared_tick_address : ({ place with tickLo := 0x1000 } : Placement).wf = false := by decide

/-! ## Decoding: words written out from R60, R61, R64 (each row's word stands in Decode.lean) -/

-- W = 1, index 0001, lane 00
theorem test_decode_plain : decode defaultOrder ⟨.regfile 0b1000100#7, 0x12#8⟩ = .ok (.wrLenHi 0x12) := by decide
-- W = 0, index 1110, lane 00
theorem test_decode_ident : decode defaultOrder ⟨.regfile 0b0111000#7, 0#8⟩ = .ok .rdIdent := by decide
-- W = 1, index 1101, lane 00
theorem test_decode_fifo : decode defaultOrder ⟨.regfile 0b1110100#7, 0x9F#8⟩ = .ok (.wrFifoData 0x9F) := by decide
-- W = 0, index 1011, lane 00
theorem test_decode_interrupt : decode defaultOrder ⟨.regfile 0b0101100#7, 0#8⟩ = .ok .rdIntFired := by decide
-- W = 0, t = 10
theorem test_decode_tick : decode defaultOrder ⟨.tickport 0b010#3, 0#8⟩ = .ok .rdTickLo := by decide
-- lane 01, and t = 11
theorem test_decode_lane_1 : decode defaultOrder ⟨.regfile 0b0110101#7, 0#8⟩ = .error .unmappedOffset := by decide
theorem test_decode_tick_3 : decode defaultOrder ⟨.tickport 0b011#3, 0#8⟩ = .error .unusedTick := by decide

-- 95_test_vectors.md 2.1, row by row
theorem test_access_fifo_data :
    decodeAccess place ⟨false, 0x00400034, 1, 0⟩ = .ok ⟨.regfile 0x34, 0⟩ := by decide
theorem test_access_int_armed :
    decodeAccess place ⟨true, 0x00400030, 1, 0xFF⟩ = .ok ⟨.regfile 0x70, 0xFF⟩ := by decide
theorem test_access_above_window :
    decodeAccess place ⟨false, 0x00400040, 1, 0⟩ = .error .notThisBlock := by decide
theorem test_access_below_window :
    decodeAccess place ⟨false, 0x003FFFFC, 1, 0⟩ = .error .notThisBlock := by decide
theorem test_access_word : decodeAccess place ⟨false, 0x00400000, 4, 0⟩ = .error .badWidth := by decide
theorem test_access_tick_mid :
    decodeAccess place ⟨false, 0x1001, 1, 0⟩ = .ok ⟨.tickport 0b001, 0⟩ := by decide
-- spec/opcode_table.json's word of WR.INT_ARMED with data 0xFF, and of RD.TICK_LO
theorem test_table_word_int_armed : decodeTableWord 16 0xFF70 = some (.wrIntArmed 0xFF) := by decide
theorem test_table_word_tick_lo : decodeTableWord 8 0x02 = some .rdTickLo := by decide

/-! ## Plain registers (95_test_vectors.md 2.1) -/

theorem test_status_bit_set : statusByte board quietDev 0xAA = 0xAB := by decide
theorem test_status_bit_clear : statusByte board { quietDev with discard := 1, busy := true } 0xFF = 0xFE := by decide
theorem test_gpio_cd : gpioByte board { quietDev with pinCd := true } 0xF2 = 0xF1 := by decide
theorem test_gpio_ext : gpioByte board { quietDev with pinExt := true, fired := 3 } 0x01 = 0x02 := by decide
theorem test_wr_len_hi :
    devAfter (exec (.wrLenHi 0x12) (machine quietDev)) = some { quietDev with lenHi := 0x12 } := by decide
theorem test_wr_len_hi_busy :
    stopOf (exec (.wrLenHi 0x00) (machine { quietDev with busy := true })) = some .countWriteWhileActive := by decide
theorem test_wr_spi_freq :
    devAfter (exec (.wrSpiFreq 0x02) (machine quietDev)) = some { quietDev with spiFreq := 0x02 } := by decide
theorem test_wr_ss :
    devAfter (exec (.wrSs 0x01) (machine quietDev)) = some { quietDev with ss := 0x01 } := by decide
theorem test_wr_ss_active :
    stopOf (exec (.wrSs 0x00) (machine { quietDev with discard := 2 })) = some .configWriteWhileActive := by decide
theorem test_rd_int_armed :
    stopOf (exec .rdIntArmed (machine quietDev)) = some (.readOfWriteOnly .intArmed) := by decide
theorem test_wr_rx_head :
    stopOf (exec (.wrRxHead 0x00) (machine quietDev)) = some (.writeOfReadOnly .rxHead) := by decide
theorem test_wr_reserved :
    stopOf (exec (.wrReserved 0x00) (machine quietDev)) = some .reservedRegister := by decide

/-! ## Identification (95_test_vectors.md 2.2, P1) -/

theorem test_rd_ident_wraps :
    (byteAfter (exec .rdIdent (machine { quietDev with idptr := 7 })),
      devAfter (exec .rdIdent (machine { quietDev with idptr := 7 }))) = (some 0x03, some quietDev) := by decide
theorem test_search_p2 :
    searchWindow [0x70, 0x64, 0x72, 0x01, 0x02, 0x03, 0xFF, 0x73] = .found ⟨1, 2, 3⟩ := by decide
theorem test_search_p7 :
    searchWindow [0x03, 0xFF, 0x73, 0x70, 0x64, 0x72, 0x01, 0x02] = .found ⟨1, 2, 3⟩ := by decide
theorem test_search_major_255 :
    searchWindow [0xFF, 0x73, 0x70, 0x64, 0x72, 0xFF, 0x01, 0x02] = .unsupported ⟨255, 1, 2⟩ := by decide
theorem test_search_printed_window :
    searchWindow [0x73, 0x64, 0x72, 0xFF, 0x73, 0x70, 0x01, 0x02] = .notFound := by decide
theorem test_search_all_ones : searchWindow (List.replicate 8 0xFF) = .notFound := by decide

/-! ## FIFO (95_test_vectors.md 2.3) -/

theorem test_occupancy_wraps : occupancy 0xFA 0x04 = 10 := by decide
theorem test_free_space : txFree board 0x03 0xFF = 0 := by decide
theorem test_rd_rx_head : byteAfter (exec .rdRxHead (machine { quietDev with rxHead := 0x9A })) = some 0x9A := by decide
theorem test_rd_rx_tail : byteAfter (exec .rdRxTail (machine { quietDev with rxTail := 0x9B })) = some 0x9B := by decide
theorem test_rd_tx_head : byteAfter (exec .rdTxHead (machine { quietDev with txHead := 0x9C })) = some 0x9C := by decide
theorem test_rd_tx_tail : byteAfter (exec .rdTxTail (machine { quietDev with txTail := 0x9D })) = some 0x9D := by decide
theorem test_wr_tx_feed :
    devAfter (exec (.wrTxFeed 0x34) (machine { quietDev with lenHi := 0x12 })) =
      some { quietDev with lenHi := 0x12, feed := 4660 } := by decide
theorem test_wr_tx_feed_active :
    stopOf (exec (.wrTxFeed 0x01) (machine { quietDev with feed := 3 })) = some .countWriteWhileActive := by decide
theorem test_wr_rx_discard :
    devAfter (exec (.wrRxDiscard 0x00) (machine { quietDev with lenHi := 0x01 })) =
      some { quietDev with lenHi := 0x01, discard := 256 } := by decide
theorem test_rd_fifo_data :
    (byteAfter (exec .rdFifoData (machine { quietDev with rxq := [0xA5, 0x5A], rxHead := 0xFF, rxTail := 1 })),
      devAfter (exec .rdFifoData (machine { quietDev with rxq := [0xA5, 0x5A], rxHead := 0xFF, rxTail := 1 }))) =
      (some 0xA5, some { quietDev with rxq := [0x5A], rxHead := 0, rxTail := 1 }) := by decide
theorem test_rd_fifo_data_empty : stopOf (exec .rdFifoData (machine quietDev)) = some .rxUnderflow := by decide
theorem test_wr_fifo_data :
    devAfter (exec (.wrFifoData 0x04) (machine { quietDev with txq := [1, 2, 3], txTail := 0xFF })) =
      some { quietDev with txq := [1, 2, 3, 4], txTail := 0 } := by decide
theorem test_wr_fifo_data_full :
    stopOf (exec (.wrFifoData 0x05) (machine { quietDev with txq := [1, 2, 3, 4] })) = some .txOverflow := by decide
theorem test_launch_queued_first :
    devAfter (engLaunch (machine { quietDev with txq := [0x40], feed := 2, discard := 1, txHead := 9 })) =
      some { quietDev with feed := 2, discard := 1, txHead := 0x0A, shiftTx := 0x40, busy := true } := by decide
theorem test_launch_no_sink :
    stopOf (engLaunch (machine { quietDev with feed := 5, rxq := [1, 2, 3, 4] })) =
      some (.notEnabled .engLaunch) := by decide
theorem test_complete_discards :
    devAfter (engComplete 0x77 (machine { quietDev with busy := true, discard := 1 })) = some quietDev := by decide
theorem test_complete_queues :
    devAfter (engComplete 0x3C (machine { quietDev with busy := true, rxTail := 0xFF })) =
      some { quietDev with rxq := [0x3C], rxTail := 0 } := by decide

/-! ## Interrupt channel (95_test_vectors.md 2.4) -/

theorem test_rd_int_fired : byteAfter (exec .rdIntFired (machine { quietDev with fired := 3 })) = some 3 := by decide
theorem test_wr_int_fired_ignores_data :
    devAfter (exec (.wrIntFired 0xA5) (machine { quietDev with fired := 3 })) = some quietDev := by decide
theorem test_wr_int_armed_raises_irq :
    (devAfter (exec (.wrIntArmed 0xFF) (machine { quietDev with fired := 2 }))).map Device.irq = some true := by decide
theorem test_wr_int_armed_1 :
    stopOf (exec (.wrIntArmed 0x01) (machine quietDev)) = some .armedValueReserved := by decide
theorem test_pin_change_merges :
    devAfter (pinChange .cd (machine { quietDev with armed := 0xFF, fired := 1, pinCd := true })) =
      some { quietDev with armed := 0xFF, fired := 1 } := by decide
theorem test_pin_change_disarmed :
    devAfter (pinChange .ext (machine quietDev)) = some { quietDev with pinExt := true } := by decide
theorem test_dispatch_preemption_off :
    stopOf (irqDispatch (machine { quietDev with armed := 0xFF, fired := 1 } { idleHost with preemptOff := true })) =
      some (.notEnabled .irqDispatch) := by decide

/-! ## Timing (95_test_vectors.md 2.5, 2.6, 1.5) -/

theorem test_rd_tick_hi :
    byteAfter (exec .rdTickHi (machine { quietDev with tick := 0x12FFFF })) = some 0x12 := by decide
theorem test_rd_tick_mid_stale :
    byteAfter (exec .rdTickMid (machine { quietDev with tick := 0x345678, tlatch := 0x000001, tlatched := true })) =
      some 0x00 := by decide
theorem test_rd_tick_lo_live :
    byteAfter (exec .rdTickLo (machine { quietDev with tick := 0x00FFFE })) = some 0xFE := by decide
theorem test_wr_tick_lo : stopOf (exec (.wrTickLo 0x00) (machine quietDev)) = some .tickWrite := by decide
theorem test_tick_wraps :
    devAfter (tickInc (machine { quietDev with tick := 0xFFFFFF })) = some quietDev := by decide
theorem test_delay_d2_spins : delayOver 0x00000F (0xFFFFF0 + 0x20) = false := by decide
theorem test_delay_d2_returns : delayOver 0x000010 (0xFFFFF0 + 0x20) = true := by decide
theorem test_delay_d5_spins : delayOver 0x000000 0x7FFFFF = false := by decide
theorem test_derive_12500 : derive 12500 128000 = 6 := by decide
theorem test_derive_25000 : derive 10000 25000 = 2 := by decide
-- P6 runs e, b, d: the bound of one second is exclusive and checked on the first sample only
theorem test_judge_run_e : judge board 1000 true 1000000 = .stop 2 .ok := by decide
theorem test_judge_run_b : judge board 1000 true 1000001 = .stop 100 .calibrationUnreliable := by decide
theorem test_judge_run_f : judge board 2000 false 2000000 = .stop 2 .ok := by decide
theorem test_judge_run_d : judge { board with calMaxScale := 4000 } 4000 false 400 = .stop 100 .exhausted := by decide

/-! ## The board's place is a parameter (R35) and REG_INDEX another (D1) -/

-- a driver bound elsewhere does not move the window; its own accesses miss the board
theorem test_init_elsewhere_leaves_the_window :
    devAfter (runEvents [.call .application (.init (some 0x00500000) none 7), .appStep,
      .access ⟨true, 0x00400004, 1, 0x12⟩] (machine quietDev)) = some { quietDev with lenHi := 0x12 } := by decide
theorem test_init_elsewhere_misses_the_board :
    devAfter (runEvents [.call .application (.init (some 0x00500000) none 7), .appStep,
      .call .application .arm, .appStep] (machine quietDev)) = some quietDev := by decide
theorem test_swapped_reg_index :
    devAfter (step { machine quietDev idleHost [.access ⟨true, 0x00400000, 1, 0x12⟩] with
      cfg := { board with place := swappedPlace } }) = some { quietDev with lenHi := 0x12 } := by decide

/-! ## Hypotheses met: for each statement of Certificates/Slice0 that has hypotheses, a state and operands -/

/-- The test machine on an absent board (R58). -/
def absentMachine : State :=
  { machine quietDev with env := { boardPresent := false, clock := [], timerAvailable := true } }

/-- A device with the engine active: the last byte on the wire. -/
def busyDev : Device := { quietDev with busy := true }

/-- A host whose handler is at `p`. -/
def handlerAt (p : HandlerPhase) : HostState := { idleHost with handler := p }

/-- A host whose application context is in `a`. -/
def hostIn (a : AppState) : HostState := { idleHost with app := a }

/-- Locals of a `spi_read` of five bytes with `k` of a pass of two still to copy. -/
def readVars (k : Nat) : ReadVars := { size := 5, left := 5, h := 0xFE, n := 2, k := k, polls := 0, buf := [] }

/-- Locals of a `spi_write` of three bytes, all pushed. -/
def writeVars : WriteVars := { size := 3, rest := [], t := 0, n := 1, k := 0, polls := 0 }

/-- Locals of a `spi_write` of five bytes with three left and `k` of a pass of two still to push. -/
def pushVars (k : Nat) : WriteVars := { size := 5, rest := [7, 8, 9], t := 0xFF, n := 2, k := k, polls := 0 }

/-- A device with two of four places of the transmit FIFO taken. -/
def pushDev : Device := { quietDev with discard := 5, txq := [1, 2], txHead := 0xFD, txTail := 0xFF }

/-- A device inside P3's transfer: two replies queued across the cursor's wrap. -/
def readDev : Device := { quietDev with feed := 3, rxq := [0x11, 0x22], rxHead := 0xFE, rxTail := 0x00 }

theorem attached (d : Device) (ag : List Event) (h : HostState) (hb : h.base = 0x00400000)
    (hc : h.ictx.boardAddr = 0x00400000) : (machine d h ag).Attached := ⟨test_params_wf, hb, hc⟩

theorem operational (d : Device) (ag : List Event) : (machine d idleHost ag).Operational :=
  ⟨attached d ag _ rfl rfl, rfl, ⟨rfl, rfl⟩, rfl, rfl⟩

/-- A host that has bound the board and not probed it. -/
def unprobed : HostState := { idleHost with probed := false, registered := false }

/-- A host that has deselected a slave without the short wait. -/
def owing : HostState := { idleHost with holdOwed := true }

theorem owing_operational (d : Device) (ag : List Event) : (machine d owing ag).Operational :=
  ⟨attached d ag _ rfl rfl, rfl, ⟨rfl, rfl⟩, rfl, rfl⟩

-- another REG_INDEX; a window that wraps past the top of the address space, the tick port right above it
theorem meets_EveryOperationDecodesAtItsBusAddress :
    place.wf = true ∧ swappedPlace.wf = true ∧
      (⟨0xFFFFFFF0, defaultOrder, 0x30, 0x31, 0xFFFFFFEF⟩ : Placement).wf = true := by decide
-- with STATUS and LEN_HI exchanged, index 0 is LEN_HI
theorem meets_OnlyItsBusAccessSelectsAnOperation :
    orderWf place.order = true ∧ orderWf swappedPlace.order = true ∧
    (decodeAccess place ⟨true, 0x0040003C, 1, 9⟩ = .ok ⟨.regfile 0x7C, 9⟩ ∧
      decode place.order ⟨.regfile 0x7C, 9⟩ = .ok (.wrReserved 9)) ∧
    (decodeAccess swappedPlace ⟨true, 0x00400000, 1, 9⟩ = .ok ⟨.regfile 0x40, 9⟩ ∧
      decode swappedPlace.order ⟨.regfile 0x40, 9⟩ = .ok (.wrLenHi 9)) ∧
    (decodeAccess place ⟨false, 0x1002, 1, 0⟩ = .ok ⟨.tickport 2, 0⟩ ∧
      decode place.order ⟨.tickport 2, 0⟩ = .ok .rdTickLo) := by decide
theorem meets_AccessBetweenRegistersRefused :
    (machine quietDev idleHost [.access ⟨false, 0x00400001, 1, 0⟩]).Operational ∧
    stopOf (step (machine quietDev idleHost [.access ⟨false, 0x00400001, 1, 0⟩])) = some .unmappedOffset ∧
    stopOf (step (machine quietDev idleHost [.access ⟨true, 0x0040003F, 1, 0⟩])) = some .unmappedOffset :=
  ⟨operational _ _, by decide, by decide⟩
-- the last byte of the window, the first one reached from below, each byte of the tick port; width 0 (log 13)
theorem meets_WideAccessRefused :
    stopOf (step (machine quietDev idleHost [.access ⟨false, 0x0040003F, 2, 0⟩])) = some .badWidth ∧
    stopOf (step (machine quietDev idleHost [.access ⟨true, 0x003FFFFF, 2, 0⟩])) = some .badWidth ∧
    stopOf (step (machine quietDev idleHost [.access ⟨false, 0x0FFF, 2, 0⟩])) = some .badWidth ∧
    stopOf (step (machine quietDev idleHost [.access ⟨false, 0x1001, 2, 0⟩])) = some .badWidth ∧
    stopOf (step (machine quietDev idleHost [.access ⟨false, 0x1002, 4, 0⟩])) = some .badWidth ∧
    stopOf (step (machine quietDev idleHost [.access ⟨true, 0x00400000, 0, 0⟩])) = some .badWidth ∧
    stopOf (step (machine quietDev idleHost [.access ⟨false, 0x1001, 0, 0⟩])) = some .badWidth := by decide
-- by selector and by address; RD.IDENT before the probe; the two writes of SS a short wait does not bar
theorem meets_StepRunsTheSelectedOperation :
    (machine quietDev idleHost [.bus ⟨.regfile 0x44, 0x12⟩]).Operational ∧
    decode board.place.order ⟨.regfile 0x44, 0x12⟩ = .ok (.wrLenHi 0x12) ∧
    decodeAccess board.place ⟨true, 0x00400004, 1, 0x12⟩ = .ok ⟨.regfile 0x44, 0x12⟩ ∧
    (∃ t, step (machine quietDev unprobed [.access ⟨false, 0x00400038, 1, 0⟩]) = .next t ∧ t.dev.idptr = 1) ∧
    (∃ t, step (machine quietDev owing [.bus ⟨.regfile 0x68, 0x00⟩]) = .next t ∧ t.host.holdOwed = true) ∧
    (∃ t, step (machine quietDev idleHost [.bus ⟨.regfile 0x68, 0x01⟩]) = .next t ∧ t.host.holdOwed = false) :=
  ⟨operational _ _, by decide, by decide, ⟨_, rfl, rfl⟩, ⟨_, rfl, rfl⟩, ⟨_, rfl, rfl⟩⟩
theorem meets_PlacedWordRunsNext :
    (machine quietDev).cfg.wf = true ∧
    decodeTableWord 8 0x38 = some .rdIdent ∧ decodeTableWord 3 0x0 = some .rdTickHi := by decide
theorem meets_StatusReadShowsDiscardEmpty : (machine quietDev).env.boardPresent = true := rfl
theorem meets_GpioReadShowsPinLevels : (machine { quietDev with pinCd := true }).env.boardPresent = true := rfl
theorem meets_QuietWritesOfLenHiAndSpiFreqStore :
    (machine quietDev).env.boardPresent = true ∧ quietDev.quiet = true ∧ busyDev.quiet = false := by decide
-- a wait owed and not; a deselecting and a selecting value; the step that pays the wait
theorem meets_SlaveSelectWrites :
    (machine quietDev).env.boardPresent = true ∧ quietDev.quiet = true ∧ busyDev.quiet = false ∧
      (machine quietDev).Operational ∧ idleHost.holdOwed = false ∧ idleHost.iters = some 5 ∧
      (machine quietDev owing [.bus ⟨.regfile 0x68, 0x01⟩]).Operational ∧ owing.holdOwed = true ∧
      decode board.place.order ⟨.regfile 0x68, 0x01⟩ = .ok (.wrSs 0x01) ∧
      decodeAccess board.place ⟨true, 0x00400028, 1, 0x01⟩ = .ok ⟨.regfile 0x68, 0x01⟩ ∧
      (0x00 : Byte) = board.ssIdle ∧ (0x01 : Byte) ≠ board.ssIdle ∧
      (∃ t, step (machine quietDev { owing with app := .shortWait } [.appStep]) = .next t ∧
        t.host.holdOwed = false) :=
  ⟨rfl, rfl, rfl, operational _ _, rfl, rfl, owing_operational _ _, rfl, by decide, by decide, rfl, by decide,
    ⟨_, rfl, rfl⟩⟩
theorem meets_ReadsOfWriteOnlyRegistersRefused : (machine busyDev).env.boardPresent = true := rfl
theorem meets_WritesOfReadOnlyRegistersRefused : (machine readDev).env.boardPresent = true := rfl
theorem meets_ReservedRegisterRefused : (machine quietDev).env.boardPresent = true := rfl
theorem meets_AbsentBoardReadsAreDraws : absentMachine.env.boardPresent = false := rfl
theorem meets_IdentReadStepsRoundTheRom :
    (machine { quietDev with idptr := 7 }).env.boardPresent = true := rfl
theorem meets_MarkerStandsAtOneRotation :
    markerAt [0x64, 0x72, 1, 2, 3, 0xFF, 0x73, 0x70] 5 = true ∧
    markerAt [0xFF, 0x73, 0x70, 0x64, 0x72, 1, 2, 3] 0 = true ∧
    markerAt [0x73, 0x70, 0x64, 0x72, 1, 2, 3, 0xFF] 7 = true := by decide
theorem meets_ProbeReportsTheFirmwareVersion :
    (machine { quietDev with idptr := 2 } unprobed).Attached ∧
      (machine { quietDev with idptr := 2 } unprobed).env.boardPresent = true ∧
      (machine { quietDev with idptr := 2 } unprobed).ready ∧ unprobed.bound = true ∧ board.fwMajor = 1 :=
  ⟨attached _ _ _ rfl rfl, rfl, ⟨rfl, rfl⟩, rfl, rfl⟩
theorem meets_PlainReadsReturnTheirRegister : (machine readDev).env.boardPresent = true := rfl
theorem meets_TriggerWritesLoadTheCount :
    ({ quietDev with lenHi := 0xFF } : Device).quiet = true ∧ busyDev.quiet = false ∧
      (machine busyDev).env.boardPresent = true := by decide
-- each of the four conjuncts of R130 fails alone
theorem meets_ActiveEngineRefusesCountAndConfigWrites :
    ({ quietDev with feed := 1 } : Device).quiet = false ∧ ({ quietDev with discard := 1 } : Device).quiet = false ∧
      ({ quietDev with txq := [0] } : Device).quiet = false ∧ busyDev.quiet = false ∧
      (machine busyDev).env.boardPresent = true := by decide
theorem meets_FifoDataReadPopsTheReceiveFifo :
    readDev.rxq = 0x11 :: [0x22] ∧ quietDev.rxq = [] ∧ (machine readDev).env.boardPresent = true := by decide
theorem meets_FifoDataWritePushesTheTransmitFifo :
    ({ quietDev with txq := [1, 2, 3] } : Device).txq.length < board.fifoDepth ∧
      board.fifoDepth ≤ ({ quietDev with txq := [1, 2, 3, 4] } : Device).txq.length ∧
      (machine { quietDev with txq := [1, 2, 3] }).env.boardPresent = true := by decide
theorem meets_EngineLaunchTakesOneByte :
    (devAfter (engLaunch (machine { quietDev with txq := [0xAA], rxq := [1, 2, 3] }))).isSome = true ∧
    (devAfter (engLaunch (machine { quietDev with feed := 1, discard := 1, rxq := [1, 2, 3, 4] }))).isSome = true ∧
    stopOf (engLaunch (machine { quietDev with discard := 7 })) = some (.notEnabled .engLaunch) := by decide
theorem meets_EngineCompleteDeliversOneByte :
    busyDev.busy = true ∧ busyDev.discard = 0 ∧ ({ busyDev with discard := 1 } : Device).discard ≠ 0 ∧
      quietDev.busy = false := by decide
theorem meets_FeedQueuesRepliesInOrder :
    ({ quietDev with feed := 4 } : Device).busy = false ∧ ({ quietDev with feed := 4 } : Device).txq = [] ∧
      ({ quietDev with feed := 4 } : Device).discard = 0 ∧ [0x11#8, 0x22, 0x33, 0x44].length ≤ (4#16).toNat ∧
      quietDev.rxq.length + [0x11#8, 0x22, 0x33, 0x44].length ≤ board.fifoDepth := by decide
theorem meets_DiscardedWriteSendsInOrder :
    ({ quietDev with txq := [0x40, 0x95], discard := 2 } : Device).busy = false ∧
    ({ quietDev with txq := [0x40, 0x95], discard := 2 } : Device).txq =
        [(0x40#8, 0x77#8), (0x95, 0x78)].map Prod.fst ∧
      [(0x40#8, 0x77#8), (0x95, 0x78)].length ≤ (2#16).toNat := by decide
theorem meets_SingleByteReadReturnsTheReply :
    (machine { quietDev with rxHead := 3, rxTail := 3 }).Operational ∧
      ({ quietDev with rxHead := 3, rxTail := 3 } : Device).quiet = true := ⟨operational _ _, rfl⟩
theorem meets_SingleByteWriteSendsTheByte :
    (machine { quietDev with txHead := 2, txTail := 2 }).Operational ∧
      ({ quietDev with txHead := 2, txTail := 2 } : Device).quiet = true := ⟨operational _ _, rfl⟩
/-- The machine in a transfer that began when the wire had carried one exchange, `e`, and has carried `w` since. -/
def midTransfer (d : Device) (a : AppState) (w : List Exchange := []) : State :=
  { machine d (hostIn a) [.appStep] with wire := ⟨1, 0x40, 0x99⟩ :: w }

-- the calls: no byte, three bytes; then each form of a transfer
theorem meets_WritesSendTheirBufferInOrder :
    (machine { quietDev with rxq := [5] }).Operational ∧ (machine { quietDev with rxq := [5] }).dev.quiet = true ∧
    ([] : List Byte).length ≤ 65535 ∧ [7#8, 8, 9].length ≤ 65535 ∧
    -- about to declare its count: none (to the completion poll), 256 bytes, spi_write1's one
    (midTransfer quietDev (.spiWrite .discard { writeVars with size := 0 })).Writing [0x40] [] [] ∧
    (midTransfer { quietDev with lenHi := 1 } (.spiWrite .discard { writeVars with
      size := 256, rest := List.replicate 256 6 })).Writing [0x40] [] (List.replicate 256 6) ∧
    (midTransfer quietDev (.spiWrite1 .discard 7)).Writing [0x40] [] [7] ∧
    -- a push with two bytes queued, and with the one in flight answered: the wire, the shifter, TXQ, the rest
    (midTransfer pushDev (.spiWrite .push (pushVars 2))).Writing [0x40] [] [1, 2, 7, 8, 9] ∧
    (midTransfer pushDev (.spiWrite .push (pushVars 2))).WriteMirror ∧
    (midTransfer pushDev (.spiWrite .push (pushVars 2))).Attached ∧
    (∃ t, step (midTransfer pushDev (.spiWrite .push (pushVars 2))) = .next t ∧ t.dev.txq = [1, 2, 7]) ∧
    (midTransfer { pushDev with discard := 4, busy := true, shiftTx := 1, txq := [2], txHead := 0xFE }
      (.spiWrite .push { pushVars 2 with rest := [8, 9] }) [⟨1, 6, 0x77⟩]).Writing [0x40] [] [6, 1, 2, 8, 9] ∧
    -- the completion poll: DISCARD 0 ends the procedure, a byte in flight does not
    (midTransfer quietDev (.spiWrite .status writeVars)
      [⟨1, 7, 0⟩, ⟨1, 8, 0⟩, ⟨1, 9, 0⟩]).Writing [0x40] [] [7, 8, 9] ∧
    (midTransfer { quietDev with discard := 1, busy := true, shiftTx := 7 }
      (.spiWrite1 (.status 0) 7)).Writing [0x40] [] [7] ∧
    ∃ t, step (midTransfer quietDev (.spiWrite .status writeVars)) = .next t ∧
      t.host.app = .idle ∧ t.host.result = .done := by
  have h : ∀ x : Byte, rxDiscardEmpty board (statusByte board quietDev x) = true := by decide
  refine ⟨operational _ _, rfl, by decide, by decide,
    ⟨_, _, _, rfl, rfl, rfl, rfl, rfl, rfl, rfl, rfl, rfl⟩,
    ⟨_, _, _, rfl, List.length_replicate.symm, rfl, rfl, rfl, rfl, rfl, rfl, by rw [List.length_replicate]; rfl⟩,
    ⟨_, _, _, rfl, rfl, rfl, rfl, rfl, rfl, rfl, rfl, rfl⟩,
    ⟨_, _, _, rfl, rfl, rfl, rfl, rfl, by decide⟩,
    ⟨by decide, by decide, by decide, by decide, by decide⟩,
    ⟨test_params_wf, rfl, rfl⟩, ⟨_, rfl, rfl⟩,
    ⟨_, _, _, rfl, rfl, rfl, rfl, rfl, by decide⟩,
    ⟨_, _, _, rfl, rfl, rfl, rfl, rfl, rfl, by decide⟩,
    ⟨_, _, _, rfl, rfl, rfl, rfl, rfl, rfl, by decide⟩,
    { midTransfer quietDev (.spiWrite .status writeVars) with
      host := { idleHost with result := .done }, readData := statusByte board quietDev (Config.anyByte 0)
      draws := 1, agenda := [] }, ?_, rfl, rfl⟩
  show (if rxDiscardEmpty board (statusByte board quietDev (Config.anyByte 0)) = true then _ else _) = _
  rw [if_pos (h _)]; rfl
theorem readDev_inv : readDev.Inv board :=
  ⟨⟨by decide, by decide⟩, ⟨by decide, by decide⟩, by show _ = _; decide, .inl rfl, fun h => by cases h⟩
theorem machine_inv (h : HostState) (ag : List Event) : (machine readDev h ag).Inv :=
  ⟨test_params_wf, readDev_inv⟩
-- a pass of two: its first copy and its last; a pass of two pushes into a FIFO with room for two, and its last push
theorem meets_MirroredCursorsFollowTheHardware :
    (machine readDev (hostIn (.spiRead .copy (readVars 2))) [.appStep]).Inv ∧
    (machine readDev (hostIn (.spiRead .copy (readVars 2))) [.appStep]).Attached ∧
    (machine readDev (hostIn (.spiRead .copy (readVars 2))) [.appStep]).ReadMirror ∧
    (machine { readDev with rxq := [0x22], rxHead := 0xFF } (hostIn (.spiRead .copy (readVars 1))) [.appStep]).ReadMirror ∧
    (∃ t, step (machine readDev (hostIn (.spiRead .copy (readVars 2))) [.appStep]) = .next t) ∧
    (machine pushDev (hostIn (.spiWrite .push (pushVars 2))) [.appStep]).WriteMirror ∧
    (machine { pushDev with txq := [1, 2, 3], txTail := 0x00 }
      (hostIn (.spiWrite .push { pushVars 1 with rest := [8, 9] })) [.appStep]).WriteMirror ∧
    (∃ t, step (machine pushDev (hostIn (.spiWrite .push (pushVars 2))) [.appStep]) = .next t) :=
  ⟨machine_inv _ _, attached _ _ _ rfl rfl, ⟨by decide, by decide, by decide, by decide, by decide⟩,
    ⟨by decide, by decide, by decide, by decide, by decide⟩, ⟨_, rfl⟩,
    ⟨by decide, by decide, by decide, by decide, by decide⟩,
    ⟨by decide, by decide, by decide, by decide, by decide⟩, ⟨_, rfl⟩⟩
-- the calls; the count about to be declared: none, 256, spi_read1's one; a copy; a poll that waits, and one that
-- gives up at its bound
theorem meets_ReadBufferIsTheRepliesInOrder :
    (machine { quietDev with rxHead := 3, rxTail := 3 }).Operational ∧ quietDev.quiet = true ∧ quietDev.rxq = [] ∧
    (midTransfer quietDev (.spiRead .feed { readVars 0 with size := 0, left := 0 })).Reading [⟨1, 0x40, 0x99⟩] 0 ∧
    (midTransfer { quietDev with lenHi := 1 }
      (.spiRead .feed { readVars 0 with size := 256, left := 256 })).Reading [⟨1, 0x40, 0x99⟩] 256 ∧
    (midTransfer quietDev (.spiRead1 .feed)).Reading [⟨1, 0x40, 0x99⟩] 1 ∧
    (midTransfer { readDev with ss := 1 } (.spiRead .copy (readVars 2))
      [⟨1, 0xFF, 0x11⟩, ⟨1, 0xFF, 0x22⟩]).Reading [⟨1, 0x40, 0x99⟩] 5 ∧
    (midTransfer { readDev with ss := 1 } (.spiRead .copy (readVars 2))).Attached ∧
    (midTransfer { readDev with ss := 1 } (.spiRead .copy (readVars 2))).ReadMirror ∧
    (∃ t, step (midTransfer { readDev with ss := 1 } (.spiRead .copy (readVars 2))) = .next t ∧
      t.dev.rxq = [0x22]) ∧
    (midTransfer { readDev with feed := 4, busy := true, shiftTx := 0xFF, rxq := [], rxHead := 0, rxTail := 0 }
      (.spiRead .poll (readVars 2))).Reading [⟨1, 0x40, 0x99⟩] 5 ∧
    (midTransfer { readDev with rxq := [0x22], ss := 1 } (.spiRead .copy { readVars 1 with buf := [0x11] })
      [⟨1, 0xFF, 0x11⟩, ⟨1, 0xFF, 0x22⟩]).ReadTrace [0x99] [0x11] ∧
    (∃ t, step { midTransfer { readDev with rxq := [], rxHead := 0xFE, rxTail := 0xFE } (.spiRead .poll (readVars 0)) with
        cfg := { board with retryBound := some 1 } } = .next t ∧ t.host.result = .incomplete 0) :=
  ⟨operational _ _, rfl, rfl,
    ⟨_, _, _, rfl, rfl, rfl, rfl, by decide, rfl, rfl, rfl, rfl, rfl⟩,
    ⟨_, _, _, rfl, rfl, rfl, rfl, by decide, rfl, rfl, rfl, rfl, by decide⟩,
    ⟨_, _, _, rfl, rfl, rfl, rfl, by decide, rfl, rfl, rfl, rfl, rfl⟩,
    ⟨_, _, _, rfl, rfl, rfl, rfl, by decide, rfl, rfl⟩,
    ⟨test_params_wf, rfl, rfl⟩, ⟨by decide, by decide, by decide, by decide, by decide⟩, ⟨_, rfl, rfl⟩,
    ⟨_, _, _, rfl, rfl, rfl, rfl, fun _ => rfl, rfl, rfl⟩, ⟨rfl, rfl⟩, ⟨_, rfl, rfl⟩⟩
theorem meets_IntFiredWriteClearsTheLatch : (machine { quietDev with fired := 3 }).env.boardPresent = true := rfl
theorem meets_IntArmedWriteStoresLegalValues :
    armedLegal 0x00 = true ∧ armedLegal 0xFF = true ∧ armedLegal 0x01 = false ∧ armedLegal 0xFE = false ∧
      (machine quietDev).env.boardPresent = true := by decide
theorem meets_PinChangeSetsTheLatch :
    ({ quietDev with armed := 0xFF } : Device).armed = 0xFF ∧
      ¬(quietDev.armed = 0xFF ∨ board.latchWhenDisarmed = true) ∧
      ({ board with latchWhenDisarmed := true } : Params).latchWhenDisarmed = true := by decide
theorem meets_DispatchStartsTheHandler :
    ({ quietDev with armed := 0xFF, fired := 1 } : Device).irq = true ∧ idleHost.registered = true ∧
      idleHost.handler = .idle ∧ idleHost.preemptOff = false ∧ quietDev.irq = false := by decide
theorem meets_HandlerCapturesClearsAndSignals :
    (machine { quietDev with armed := 0xFF, fired := 1 } (handlerAt .readFired)).Attached ∧
      (handlerAt .readFired).handler = .readFired := ⟨attached _ _ _ rfl rfl, rfl⟩
theorem meets_EdgeBetweenReadAndClearIsLost :
    (machine { quietDev with armed := 0xFF, fired := 1 } (handlerAt .readFired)).Attached ∧
      (handlerAt .readFired).handler = .readFired := ⟨attached _ _ _ rfl rfl, rfl⟩
-- signal 7 is the channel's
theorem meets_ConsumerWaitsThenTakesTheSnapshot :
    (machine { quietDev with fired := 1 }).Operational ∧ (machine quietDev).ready ∧
      idleHost.ictx.signalId ∉ idleHost.signals ∧
      ({ idleHost with signals := [7] } : HostState).ictx.signalId ∈ ({ idleHost with signals := [7] } : HostState).signals ∧
      (machine quietDev { idleHost with signals := [7] }).Operational :=
  ⟨operational _ _, ⟨rfl, rfl⟩, by decide, by decide, ⟨attached _ _ _ rfl rfl, rfl, ⟨rfl, rfl⟩, rfl, rfl⟩⟩
theorem meets_HandlerExcludesTheApplication :
    (handlerAt .readFired).handler ≠ .idle ∧ (handlerAt .clearFired).handler ≠ .idle ∧
      (handlerAt .raiseSignal).handler ≠ .idle := by decide
-- a capture, and an initialization after one
theorem meets_LastFiredChangesOnlyByCaptureOrCreation :
    (∃ t, step (machine { quietDev with fired := 1 } (handlerAt .readFired) [.handlerStep]) = .next t ∧
      t.host.ictx.lastFired ≠ (handlerAt .readFired).ictx.lastFired) ∧
    (∃ t, step (machine quietDev { hostIn (.init none none 7) with
        ictx := { boardAddr := 0x00400000, signalId := 7, lastFired := 3 } } [.appStep]) = .next t ∧
      t.host.ictx.lastFired ≠ 3) ∧
    (machine { quietDev with fired := 1 } (handlerAt .readFired) [.handlerStep]).Attached :=
  ⟨⟨_, rfl, by decide⟩, ⟨_, rfl, by decide⟩, attached _ _ _ rfl rfl⟩
theorem meets_TickReadsLatchAndUnlatch :
    (machine { quietDev with tick := 0x345678, tlatch := 1, tlatched := true }).env.boardPresent = true := rfl
theorem meets_TickPortWritesRefused : (machine { quietDev with tick := 0x345678 }).env.boardPresent = true := rfl
theorem meets_TickCounterOnlyCounts :
    ∃ t, step (machine { quietDev with tick := 0xFFFFFF } idleHost [.tickInc]) = .next t ∧ t.dev.tick = 0 :=
  ⟨_, rfl, by decide⟩
theorem meets_ReadTicksReturnsOneInstant : (machine { quietDev with tick := 0x12FFFF }).Operational := operational _ _
-- both ends of the window and of `ticks`; a later reading that ends delay and one that does not; its third reads
theorem meets_DelayEndsInItsWindow :
    (8388607 : Nat) < 2 ^ 23 ∧ (0 : Nat) < 2 ^ 23 ∧ delayOver 0x7FFFFF (0x000000 + BitVec.ofNat 24 8388607) = true ∧
      delayOver 0x800010 (0x000000 + BitVec.ofNat 24 0x10) = false ∧
    (machine { quietDev with tick := 0xFFFFFF }).Operational ∧
    (machine { quietDev with tick := 0x10 } (hostIn (.delay 0x20 (some 0x10) .hi))).Attached ∧
    (hostIn (.delay 0x20 (some 0x10) .hi)).bound = true ∧ (hostIn (.delay 0x20 (some 0x10) .hi)).probed = true ∧
    delayOver 0x10 0x10 = true ∧ delayOver 0x0F 0x10 = false ∧
    (∃ t, step (machine { quietDev with tick := 0xF0 } (hostIn (.delay 0x20 none (.lo 0xFF 0xFF))) [.appStep]) =
      .next t ∧ t.host.app = .delay 0x20 (some 0x000010) .hi) ∧
    (∃ t, step (machine { quietDev with tick := 0x10 } (hostIn (.delay 0x20 (some 0x10) (.lo 0 0))) [.appStep]) =
      .next t ∧ t.host.app = .idle) ∧
    (∃ t, step (machine { quietDev with tick := 0x0F } (hostIn (.delay 0x20 (some 0x10) (.lo 0 0))) [.appStep]) =
      .next t ∧ t.host.app = .delay 0x20 (some 0x10) .hi) :=
  ⟨by decide, by decide, by decide, by decide, operational _ _, attached _ _ _ rfl rfl, rfl, rfl, by decide,
    by decide, ⟨_, rfl, by decide⟩, ⟨_, rfl, rfl⟩, ⟨_, rfl, rfl⟩⟩
theorem meets_DeriveNeverUndershoots : derive 1 1 = 2 ∧ derive 1000000 1000 = 2 := by decide
/-- A host that has measured `m` microseconds at a scale. -/
def measured (scale : Nat) (first : Bool) (m : Int) : HostState :=
  { hostIn (.calibrate (.decide m)) with cal := .measure scale first, iters := none }

-- entry without and with a timer; each row's measurement at its boundary; a second run
theorem meets_CalibrationFollowsItsTable :
    (machine quietDev { idleHost with cal := .idle, iters := none }).ready ∧
    ({ idleHost with cal := .idle, iters := none } : HostState).cal = .idle ∧
    (machine quietDev).env.timerAvailable = true ∧ ({ boardPresent := true, clock := [], timerAvailable := false } : Env).timerAvailable = false ∧
    (∃ t, runEvent .appStep (machine quietDev (measured 1000 true 1000001)) = .next t ∧ t.host.iters = some 100) ∧
    (∃ t, runEvent .appStep (machine quietDev (measured 1000 true 10000)) = .next t ∧ t.host.iters = some 2) ∧
    (∃ t, runEvent .appStep (machine quietDev (measured 512000 false 9999)) = .next t ∧
      t.host.cal = .measure 1024000 false) ∧
    (∃ t, runEvent .appStep (machine quietDev (measured 1024000 false 9999)) = .next t ∧
      t.host.result = .calibrated .exhausted) ∧
    idleHost.cal ≠ .idle :=
  ⟨⟨rfl, rfl⟩, rfl, rfl, rfl, ⟨_, rfl, rfl⟩, ⟨_, rfl, by decide⟩, ⟨_, rfl, rfl⟩, ⟨_, rfl, rfl⟩, by decide⟩
theorem meets_MeasurementSamplesWithPreemptionOff :
    (hostIn (.calibrate .disablePreemption)).handler = .idle ∧
    ({ boardPresent := true, clock := [⟨1, 999999⟩, ⟨2, 0⟩], timerAvailable := true } : Env).clock =
      ⟨1, 999999⟩ :: ⟨2, 0⟩ :: [] ∧ elapsedUs ⟨1, 999999⟩ ⟨2, 0⟩ = 1 := by decide
/-- A host with two timer handles open. -/
def timed : HostState := { idleHost with timer := { handles := [0, 1], next := 2, request := none } }

-- with a timer and without; a handle open and not; no signal of the set set, and one set
theorem meets_DeadlineTimerFollowsItsContract :
    (machine quietDev timed).ready ∧ (machine quietDev timed).env.timerAvailable = true ∧
      absentMachine.ready ∧ ({ boardPresent := true, clock := [], timerAvailable := false } : Env).timerAvailable = false ∧
      2 ∉ timed.timer.handles ∧ 1 ∈ timed.timer.handles ∧
      (∀ n ∈ [4, 5], n ∉ timed.signals) ∧ (∃ n ∈ [4, 5], n ∈ ({ timed with signals := [5] } : HostState).signals) := by
  refine ⟨⟨rfl, rfl⟩, rfl, ⟨rfl, rfl⟩, rfl, ?_⟩; decide
-- R228: open, open, close(h1), waitDeadline(h2)
theorem test_timer_second_handle :
    (match runEvents [.call .application (.closeTimer 0), .appStep, .call .application (.waitDeadline 1 50 []),
        .deadline, .appStep] (machine quietDev timed) with
      | .next t => some (t.host.timer.handles, t.host.result)
      | .fault _ | .refused _ => none) = some ([1], .woken false) := by decide
-- R279: a raw WR.SS of SS_IDLE, then one that selects
theorem test_deselect_hold :
    stopOf (runEvents [.bus ⟨.regfile 0x68, 0x00⟩, .bus ⟨.regfile 0x68, 0x01⟩] (machine quietDev)) =
      some .deselectHold := by decide
theorem unprobed_calInv : unprobed.CalInv := ⟨fun n h => by cases h; decide, fun _ => rfl, fun _ => rfl⟩
theorem unprobed_inv : unprobed.Inv where
  cal := unprobed_calInv
  registered h := by cases h
  handler h := absurd rfl h
  registering h := by cases h
theorem meets_StepKeepsTheHostInvariants :
    (machine quietDev unprobed).cfg.wf = true ∧ unprobed.Inv ∧ unprobed.cal = .done ∧ unprobed.probed = false ∧
      (machine quietDev unprobed [.bus ⟨.regfile 0x38, 0⟩]).Attached ∧
      (∃ t, step (machine quietDev unprobed [.bus ⟨.regfile 0x38, 0⟩]) = .next t) :=
  ⟨test_params_wf, unprobed_inv, rfl, rfl, attached _ _ _ rfl rfl, ⟨_, rfl⟩⟩
theorem meets_BindingAndRegistration :
    (machine quietDev { idleHost with bound := false }).ready ∧ (machine quietDev).ready ∧
      idleHost.bound = true ∧ idleHost.probed = true := ⟨⟨rfl, rfl⟩, ⟨rfl, rfl⟩, rfl, rfl⟩
-- a selector line and an address line that select an operation, and one between registers
theorem meets_ProcedureGuards :
    (hostIn .pinState).app ≠ .idle ∧ usesBoard .arm = true ∧ usesBoard .register = true ∧
      usesBoard (.delay 8388607) = true ∧ unprobed.bound = true ∧ unprobed.probed = false ∧
      ({ idleHost with bound := false } : HostState).bound = false ∧ 2 ^ 23 ≤ 8388608 ∧
      ({ idleHost with iters := none } : HostState).iters = none ∧
      decode board.place.order ⟨.regfile 0x70, 0xFF⟩ = .ok (.wrIntArmed 0xFF) ∧
      decodeAccess board.place ⟨false, 0x00400001, 1, 0⟩ = .ok ⟨.regfile 0x01, 0⟩ ∧
      decode board.place.order ⟨.regfile 0x01, 0⟩ = .error .unmappedOffset ∧
      decode board.place.order ⟨.regfile 0x38, 0⟩ = .ok .rdIdent := by decide
theorem test_register_before_probe :
    stopOf (runEvent (.call .application .register) (machine quietDev unprobed)) = some .notProbed := by decide
theorem test_armed_line_before_probe :
    stopOf (step (machine quietDev unprobed [.bus ⟨.regfile 0x70, 0xFF⟩])) = some .notProbed := by decide
theorem meets_StepKeepsTheInvariants :
    (machine readDev idleHost [.engLaunch]).Inv ∧
      ∃ t, step (machine readDev idleHost [.engLaunch]) = .next t := ⟨machine_inv _ _, ⟨_, rfl⟩⟩
theorem meets_FifosLoseAndReorderNothing :
    ∃ t, step (machine readDev idleHost [.bus ⟨.regfile 0x34, 0⟩]) = .next t ∧ t.dev.rxq = [0x22] :=
  ⟨_, rfl, rfl⟩
theorem meets_SettingsChangeOnlyWhileQuiet :
    busyDev.quiet = false ∧ ∃ t, step (machine busyDev idleHost [.bus ⟨.regfile 0x38, 0⟩]) = .next t ∧
      t.dev.idptr = 1 := ⟨rfl, _, rfl, rfl⟩

end Sys2Proof.Tests
end

section
/-! Encoding (O2): each operation is what the byte access at its own bus address decodes to. -/

namespace Sys2Proof

open Sys2Proof.Laws

/-- The round trips of Laws/PerInstr.lean, gathered over the operations. -/
theorem decode_encode : ∀ i : Instr, RoundTrip.Statement i
  | .rdStatus => RoundTrip.rdStatus
  | .rdLenHi => RoundTrip.rdLenHi
  | .rdGpio => RoundTrip.rdGpio
  | .rdRxHead => RoundTrip.rdRxHead
  | .rdRxTail => RoundTrip.rdRxTail
  | .rdTxHead => RoundTrip.rdTxHead
  | .rdTxTail => RoundTrip.rdTxTail
  | .rdRxDiscard => RoundTrip.rdRxDiscard
  | .rdTxFeed => RoundTrip.rdTxFeed
  | .rdSpiFreq => RoundTrip.rdSpiFreq
  | .rdSs => RoundTrip.rdSs
  | .rdIntFired => RoundTrip.rdIntFired
  | .rdIntArmed => RoundTrip.rdIntArmed
  | .rdFifoData => RoundTrip.rdFifoData
  | .rdIdent => RoundTrip.rdIdent
  | .rdReserved => RoundTrip.rdReserved
  | .wrStatus d => RoundTrip.wrStatus d
  | .wrLenHi d => RoundTrip.wrLenHi d
  | .wrGpio d => RoundTrip.wrGpio d
  | .wrRxHead d => RoundTrip.wrRxHead d
  | .wrRxTail d => RoundTrip.wrRxTail d
  | .wrTxHead d => RoundTrip.wrTxHead d
  | .wrTxTail d => RoundTrip.wrTxTail d
  | .wrRxDiscard d => RoundTrip.wrRxDiscard d
  | .wrTxFeed d => RoundTrip.wrTxFeed d
  | .wrSpiFreq d => RoundTrip.wrSpiFreq d
  | .wrSs d => RoundTrip.wrSs d
  | .wrIntFired d => RoundTrip.wrIntFired d
  | .wrIntArmed d => RoundTrip.wrIntArmed d
  | .wrFifoData d => RoundTrip.wrFifoData d
  | .wrIdent d => RoundTrip.wrIdent d
  | .wrReserved d => RoundTrip.wrReserved d
  | .rdTickHi => RoundTrip.rdTickHi
  | .rdTickMid => RoundTrip.rdTickMid
  | .rdTickLo => RoundTrip.rdTickLo
  | .wrTickHi d => RoundTrip.wrTickHi d
  | .wrTickMid d => RoundTrip.wrTickMid d
  | .wrTickLo d => RoundTrip.wrTickLo d

/-! ## Each selector is found at its own address (R41, R61, R81) -/

/-- A transaction that selects an operation has lane 00, or a tick byte other than `t = 3` (R65). -/
theorem Selector.wf_of_decode {o : List RegName} {sel : Selector} {d : Byte} {i : Instr}
    (h : decode o ⟨sel, d⟩ = .ok i) : sel.wf = true := by
  cases sel with
  | regfile v =>
    simp only [decode, decodeRegfile] at h
    split at h
    · next hlane => exact beq_iff_eq.mpr hlane
    · cases h
  | tickport v =>
    have unused : ∀ v : BitVec 3, (Selector.tickport v).wf = false → v = 3#3 ∨ v = 7#3 := by decide
    by_contra hwf
    obtain rfl | rfl := unused v (Bool.eq_false_iff.mpr hwf)
    · cases h
    · cases h

/-- R41: a byte of the window has the selector its direction and its offset make. -/
theorem selectorAt_window {p : Placement} {w : Bool} {a : Addr} (h : (p.offset a).toNat < 64) :
    selectorAt p w a = some (.regfile (BitVec.ofBool w ++ (p.offset a).extractLsb' 0 6)) :=
  if_pos h

/-- R41, R61: on a placement within R4's ranges the byte at the address of a tick byte is that tick byte, the
address being outside the window and none of the other two. -/
theorem selectorAt_tickAddress {p : Placement} (hp : p.wf = true) (w : Bool) {t : BitVec 2} (ht : t ≠ 3#2) :
    selectorAt p w (p.tickAddress t) = some (tickSelector w t) := by
  simp only [Placement.wf, Bool.and_eq_true, decide_eq_true_eq, bne_iff_ne] at hp
  obtain ⟨⟨⟨⟨⟨⟨-, hHi⟩, hMid⟩, hLo⟩, hHiMid⟩, hHiLo⟩, hMidLo⟩ := hp
  have hcases : ∀ t : BitVec 2, t ≠ 3#2 → t = 0#2 ∨ t = 1#2 ∨ t = 2#2 := by decide
  obtain rfl | rfl | rfl := hcases t ht
  · change selectorAt p w p.tickHi = _
    simp only [selectorAt, tickSelector, hHi.not_gt, if_true, if_false]
  · change selectorAt p w p.tickMid = _
    simp only [selectorAt, tickSelector, hMid.not_gt, hHiMid.symm, if_true, if_false]
  · change selectorAt p w p.tickLo = _
    simp only [selectorAt, tickSelector, hLo.not_gt, hHiLo.symm, hMidLo.symm, if_true, if_false]

/-- A REGFILE selector is found at its address on every placement: the offset there is its low six bits, also
where the window wraps around. -/
theorem selectorAt_regfile_address (p : Placement) (v : BitVec 7) :
    selectorAt p (v.getLsbD 6) ((Selector.regfile v).address p) = some (.regfile v) := by
  have hoff : p.offset ((Selector.regfile v).address p) = (v.extractLsb' 0 6).zeroExtend 32 := by
    simp only [Placement.offset, Selector.address, BitVec.add_comm p.base, BitVec.add_sub_cancel]
  have hlt : ∀ v : BitVec 7, ((v.extractLsb' 0 6).zeroExtend 32).toNat < 64 := by decide
  have hbits : ∀ v : BitVec 7,
      BitVec.ofBool (v.getLsbD 6) ++ ((v.extractLsb' 0 6).zeroExtend 32).extractLsb' 0 6 = v := by decide
  rw [selectorAt_window (hoff ▸ hlt v), hoff, hbits]

/-- A TICKPORT selector other than `t = 3` is found at the address of its tick byte. -/
theorem selectorAt_tickport_address {p : Placement} (hp : p.wf = true) {v : BitVec 3}
    (hv : (Selector.tickport v).wf = true) :
    selectorAt p (v.getLsbD 2) ((Selector.tickport v).address p) = some (.tickport v) := by
  have hbits : ∀ v : BitVec 3, BitVec.ofBool (v.getLsbD 2) ++ v.extractLsb' 0 2 = v := by decide
  have hfound := selectorAt_tickAddress hp (v.getLsbD 2) (bne_iff_ne.mp hv)
  rwa [tickSelector, hbits] at hfound

/-- On a placement within R4's ranges every selector of one of R64's rows is found at its own address, in its
own direction. -/
theorem selectorAt_address {p : Placement} (hp : p.wf = true) {sel : Selector} (hsel : sel.wf = true) :
    selectorAt p sel.isWrite (sel.address p) = some sel := by
  cases sel with
  | regfile v => exact selectorAt_regfile_address p v
  | tickport v => exact selectorAt_tickport_address hp hsel

/-- R81: a byte access is the transaction of the selector found at its address. -/
theorem decodeAccess_of_selectorAt {p : Placement} {w : Bool} {a : Addr} {d : Byte} {sel : Selector}
    (h : selectorAt p w a = some sel) : decodeAccess p ⟨w, a, 1, d⟩ = .ok ⟨sel, d⟩ := by
  simp only [decodeAccess, if_true, h]

/-- Settles O2: the decoder undoes the encoder, so an operation's selector is one of R64's rows, which the
access at its address reaches. -/
theorem everyOperationDecodesAtItsBusAddress : Obligations.EveryOperationDecodesAtItsBusAddress := by
  intro p hp i
  have hdecode : decode p.order (encode p.order i) = .ok i :=
    decode_encode i p.order (Machine.Placement.wf_order hp)
  have hfound := selectorAt_address hp (Selector.wf_of_decode hdecode)
  exact ⟨rfl, decodeAccess_of_selectorAt hfound, hdecode⟩

end Sys2Proof
end

section
/-! The reset state (O56, O57): the values R36 gives, parameters in R4's ranges, and the invariants of R37. -/

namespace Sys2Proof

/-! ## The uninterpreted parameters lie in R4's ranges -/

theorem oneHot_bitMask (b : Fin 8) : oneHot (Config.bitMask b.val) = true := by
  revert b; decide

/-- The external pin's bit lies one to seven places after the card-detect bit, so never on it. -/
theorem bitMask_ne_bitMask_gap (b : Fin 8) (g : Fin 7) :
    Config.bitMask b.val ≠ Config.bitMask ((b.val + 1 + g.val) % 8) := by
  revert b g; decide

theorem Config.skip_ne (a n : Nat) : Config.skip a n ≠ a := by
  unfold Config.skip; split <;> omega

theorem Config.skip_le (a n : Nat) : Config.skip a n ≤ n + 1 := by
  unfold Config.skip; split <;> omega

/-- Skipping the lower of two places, then the upper, passes by the lower one too. -/
theorem Config.skip_skip_ne {lo hi : Nat} (h : lo < hi) (n : Nat) : Config.skip hi (Config.skip lo n) ≠ lo := by
  have := Config.skip_ne lo n
  unfold Config.skip at this ⊢; split_ifs at this ⊢ <;> omega

theorem Config.tickMidPast_lt : Config.tickMidPast < 4294967232 := by
  have := Config.skip_le Config.tickHiPast.val Config.tickMidPick.val
  unfold Config.tickMidPast; omega

theorem Config.tickLoPast_lt : Config.tickLoPast < 4294967232 := by
  have hinner := Config.skip_le (min Config.tickHiPast.val Config.tickMidPast) Config.tickLoPick.val
  have houter := Config.skip_le (max Config.tickHiPast.val Config.tickMidPast)
    (Config.skip (min Config.tickHiPast.val Config.tickMidPast) Config.tickLoPick.val)
  unfold Config.tickLoPast; omega

theorem Config.tickHiPast_ne_tickMidPast : Config.tickHiPast.val ≠ Config.tickMidPast :=
  (Config.skip_ne _ _).symm

/-- TICK_LO's place is neither the lower nor the upper of the other two. -/
theorem Config.tickLoPast_ne : Config.tickHiPast.val ≠ Config.tickLoPast ∧ Config.tickMidPast ≠ Config.tickLoPast := by
  have hne := Config.tickHiPast_ne_tickMidPast
  have hupper : Config.tickLoPast ≠ max Config.tickHiPast.val Config.tickMidPast := Config.skip_ne _ _
  have hlower : Config.tickLoPast ≠ min Config.tickHiPast.val Config.tickMidPast :=
    Config.skip_skip_ne (by omega) _
  omega

/-- A place past the window's end, counted from the base: it does not come round to the window again. -/
theorem Config.offset_pastWindow {n : Nat} (h : n < 4294967232) :
    (Config.placement.offset (Config.pastWindow n)).toNat = 64 + n := by
  simp only [Placement.offset, Config.placement, Config.pastWindow, BitVec.add_comm Config.base,
    BitVec.add_sub_cancel, BitVec.toNat_ofNat]
  omega

/-- Different places past the window's end are different addresses. -/
theorem Config.pastWindow_ne {m n : Nat} (hm : m < 4294967232) (hn : n < 4294967232) (h : m ≠ n) :
    Config.pastWindow m ≠ Config.pastWindow n := by
  intro he
  have hoff := Config.offset_pastWindow hn
  rw [← he, Config.offset_pastWindow hm] at hoff
  omega

/-- The placement of the reset state: REG_INDEX the enumeration order, the tick addresses outside the window and
distinct (R4). -/
theorem Config.placement_wf : Config.placement.wf = true := by
  have hHi := Config.tickHiPast.isLt
  have hMid := Config.tickMidPast_lt
  have hLo := Config.tickLoPast_lt
  obtain ⟨hHiLo, hMidLo⟩ := Config.tickLoPast_ne
  have houtside {n : Nat} (hn : n < 4294967232) :
      64 ≤ (Config.placement.offset (Config.pastWindow n)).toNat := by
    rw [Config.offset_pastWindow hn]; omega
  simp only [Placement.wf, Bool.and_eq_true, decide_eq_true_eq, bne_iff_ne]
  exact ⟨⟨⟨⟨⟨⟨List.isPerm_iff.mpr (.refl _), houtside hHi⟩, houtside hMid⟩, houtside hLo⟩,
    Config.pastWindow_ne hHi hMid Config.tickHiPast_ne_tickMidPast⟩, Config.pastWindow_ne hHi hLo hHiLo⟩,
    Config.pastWindow_ne hMid hLo hMidLo⟩

theorem Config.params_wf : Config.params.wf = true := by
  have hdepth := Config.fifoDepthLessOne.isLt
  simp only [Params.wf, Bool.and_eq_true, decide_eq_true_eq, bne_iff_ne]
  exact ⟨⟨⟨⟨⟨⟨⟨Config.placement_wf, oneHot_bitMask _⟩, oneHot_bitMask _⟩,
    oneHot_bitMask ⟨_, Nat.mod_lt _ (by omega)⟩⟩, bitMask_ne_bitMask_gap _ _⟩,
    Nat.le_add_left _ _, hdepth⟩, Nat.le_add_right _ _, Nat.le_add_right _ _⟩, Nat.le_add_left _ _⟩

/-! ## The board and the host at reset -/

namespace Machine

/-- A cursor pair with equal cursors holds nothing (R121). -/
theorem occupancy_self (c : Byte) : occupancy c c = 0 := BitVec.sub_self c

/-- The board after power-on meets R37: empty queues between equal cursors, no latch bit, disarmed, not busy. -/
theorem Device.reset_inv (cfg : Params) : (Device.reset cfg).Inv cfg where
  rx := ⟨congrArg BitVec.toNat (occupancy_self _), Nat.zero_le _⟩
  tx := ⟨congrArg BitVec.toNat (occupancy_self _), Nat.zero_le _⟩
  fired := BitVec.zero_and
  armed := .inl rfl
  sink := nofun

/-- The driver before it has done anything meets its own rules: no calibration result, nothing registered. -/
theorem HostState.reset_inv (cfg : Params) : (HostState.reset cfg).Inv where
  cal := ⟨nofun, nofun, nofun⟩
  registered := nofun
  handler h := absurd rfl h
  registering := nofun

end Machine

open Machine

/-- Settles O56: each field of the reset state is written with R36's value; IRQ and quiet follow from them. -/
theorem resetLeavesTheTableOfR36 : Obligations.ResetLeavesTheTableOfR36 := by
  have hirq : State.reset.dev.irq = false := rfl
  have hquiet : State.reset.dev.quiet = true := rfl
  exact ⟨rfl, rfl, rfl, rfl, rfl, rfl, rfl, rfl, rfl, rfl, rfl, hirq, hquiet, rfl, rfl, rfl, rfl, rfl, rfl, rfl,
    List.not_mem_nil, rfl⟩

/-- Settles O57: the parameters range over R4's ranges, and the reset board meets R37 under any parameters. -/
theorem resetMeetsTheInvariants : Obligations.ResetMeetsTheInvariants :=
  ⟨Config.params_wf, Device.reset_inv _⟩

end Sys2Proof
end

section
/-! The board's invariants and the FIFOs (O58, O59), from `step_effect`: what any step can do to the device. -/

namespace Sys2Proof.Machine

variable {cfg : Params} {d d' : Device}

/-! ## What the guards and the engine's steps give -/

theorem Device.quiet_busy (h : d.quiet = true) : d.busy = false := by
  simp only [Device.quiet, Bool.and_eq_true, Bool.not_eq_true'] at h
  exact h.2

/-- An idle engine has no byte in flight that would need a sink. -/
theorem Device.sinkInv_of_idle (h : d.busy = false) : d.sinkInv cfg := fun hbusy =>
  absurd hbusy (by simp [h])

/-- A sink exists exactly where the next reply is discarded or the receive FIFO has room (R140). -/
theorem Device.hasSink_iff : d.hasSink cfg = true ↔ d.discard ≠ 0 ∨ d.rxq.length < cfg.fifoDepth := by
  simp only [Device.hasSink, Bool.or_eq_true, bne_iff_ne, decide_eq_true_eq]

theorem Device.canLaunch_iff :
    d.canLaunch cfg = true ↔ d.busy = false ∧ d.hasSource = true ∧ d.hasSink cfg = true := by
  simp only [Device.canLaunch, Bool.and_eq_true, Bool.not_eq_true', and_assoc]

/-- A byte taken from the receive FIFO makes room: a sink stays a sink (R128, R144). -/
theorem Device.sinkInv_popRx {b : Byte} {q : List Byte} (h : d.sinkInv cfg) (hq : d.rxq = b :: q) :
    (d.popRx q).sinkInv cfg := fun hbusy => by
  have hsink := Device.hasSink_iff.mp (h hbusy)
  simp only [hq, List.length_cons] at hsink
  exact Device.hasSink_iff.mpr (hsink.imp_right fun hroom => Nat.lt_of_succ_lt hroom)

/-- FIRED keeps to the pins' bits when a pin's latch bit is set (R22, R177). -/
theorem Device.firedInv_or_pinMask (h : d.firedInv cfg) (p : Pin) :
    (d.fired ||| pinMask cfg p) &&& ~~~(cfg.pinCdMask ||| cfg.pinExtMask) = 0 := by
  have hpin : pinMask cfg p &&& ~~~(cfg.pinCdMask ||| cfg.pinExtMask) = 0 := by
    ext i hi
    cases p <;> simp +contextual [pinMask]
  rw [BitVec.and_or_distrib_right, h, hpin]; rfl

/-- R177: a pin's edge sets that pin's latch bit or leaves the latch as it is. -/
theorem Device.pinChange_fired (cfg : Params) (d : Device) (p : Pin) :
    (d.pinChange cfg p).fired = d.fired ||| pinMask cfg p ∨ (d.pinChange cfg p).fired = d.fired := by
  unfold Device.pinChange
  split
  · exact .inl rfl
  · cases p <;> exact .inr rfl

/-! ## Each kind of step keeps the invariants of R37 -/

theorem Device.AccessStep.inv (hw : cfg.wf = true) (h : d.AccessStep cfg d') (hi : d.Inv cfg) : d'.Inv cfg := by
  obtain ⟨hrx, htx, hfired, harmed, hsink⟩ := hi
  cases h with
  | same => exact ⟨hrx, htx, hfired, harmed, hsink⟩
  | lenHi _ x => exact ⟨hrx, htx, hfired, harmed, hsink⟩
  | spiFreq _ x => exact ⟨hrx, htx, hfired, harmed, hsink⟩
  | ss _ x => exact ⟨hrx, htx, hfired, harmed, hsink⟩
  | discard hq x =>
    have hidle : d.busy = false := Device.quiet_busy hq
    exact ⟨hrx, htx, hfired, harmed, sinkInv_of_idle hidle⟩
  | feed _ x => exact ⟨hrx, htx, hfired, harmed, hsink⟩
  | popRx b q hq => exact ⟨rxInv_popRx hrx hq, htx, hfired, harmed, sinkInv_popRx hsink hq⟩
  | pushTx b hroom => exact ⟨hrx, txInv_pushTx hw htx b hroom, hfired, harmed, hsink⟩
  | idptr => exact ⟨hrx, htx, hfired, harmed, hsink⟩
  | clearFired => exact ⟨hrx, htx, BitVec.zero_and, harmed, hsink⟩
  | armed x hx =>
    have hlegal : x = 0x00#8 ∨ x = 0xFF#8 := by simpa [armedLegal] using hx
    exact ⟨hrx, htx, hfired, hlegal, hsink⟩
  | latch => exact ⟨hrx, htx, hfired, harmed, hsink⟩
  | unlatch => exact ⟨hrx, htx, hfired, harmed, hsink⟩

/-- R140: ENG.LAUNCH checks for the sink it needs, and touches neither DISCARD nor the receive FIFO. -/
theorem Device.launch_inv (hc : d.canLaunch cfg = true) (hi : d.Inv cfg) : (d.launch cfg).Inv cfg := by
  obtain ⟨hrx, htx, hfired, harmed, -⟩ := hi
  obtain ⟨-, -, hsink⟩ := Device.canLaunch_iff.mp hc
  rcases d.launch_cases cfg with ⟨b, q, hq, he⟩ | ⟨-, he⟩
  · rw [he]; exact ⟨hrx, txInv_popTx htx hq, hfired, harmed, fun _ => hsink⟩
  · rw [he]; exact ⟨hrx, htx, hfired, harmed, fun _ => hsink⟩

/-- R141: where the reply is not discarded, the sink of the byte in flight is room in the receive FIFO. -/
theorem Device.complete_inv (hw : cfg.wf = true) (hb : d.busy = true) (r : Byte) (hi : d.Inv cfg) :
    (d.complete r).Inv cfg := by
  obtain ⟨hrx, htx, hfired, harmed, hsink⟩ := hi
  rcases d.complete_cases r with ⟨h0, he⟩ | ⟨-, he⟩
  · have hroom : d.rxq.length < cfg.fifoDepth := (Device.hasSink_iff.mp (hsink hb)).resolve_left (absurd h0)
    rw [he]; exact ⟨rxInv_pushRx hw hrx r hroom, htx, hfired, harmed, sinkInv_of_idle rfl⟩
  · rw [he]; exact ⟨hrx, htx, hfired, harmed, sinkInv_of_idle rfl⟩

theorem Device.pinChange_inv (p : Pin) (hi : d.Inv cfg) : (d.pinChange cfg p).Inv cfg := by
  have hlatch : (d.pinChange cfg p).firedInv cfg := by
    rcases d.pinChange_fired cfg p with he | he
    · rw [Device.firedInv, he]; exact Device.firedInv_or_pinMask hi.fired p
    · rw [Device.firedInv, he]; exact hi.fired
  rw [Device.pinChange_frame]
  exact ⟨hi.rx, hi.tx, hlatch, hi.armed, hi.sink⟩

theorem Device.AnyStep.inv (hw : cfg.wf = true) (h : d.AnyStep cfg d') (hi : d.Inv cfg) : d'.Inv cfg := by
  cases h with
  | access ha => exact ha.inv hw hi
  | launch hc => exact Device.launch_inv hc hi
  | complete r hb => exact Device.complete_inv hw hb r hi
  | pin p => exact Device.pinChange_inv p hi
  | tick => exact ⟨hi.rx, hi.tx, hi.fired, hi.armed, hi.sink⟩

/-! ## What a step can do to each FIFO -/

/-- The receive FIFO keeps its bytes, gives up its head, or gains a byte at its tail, cursors in step (R17). -/
inductive Device.RxStep (d d' : Device) : Prop
  | keep (hq : d'.rxq = d.rxq) (hh : d'.rxHead = d.rxHead) (ht : d'.rxTail = d.rxTail)
  | pop (b : Byte) (hq : d.rxq = b :: d'.rxq) (hh : d'.rxHead = d.rxHead + 1) (ht : d'.rxTail = d.rxTail)
  | push (b : Byte) (hq : d'.rxq = d.rxq ++ [b]) (hh : d'.rxHead = d.rxHead) (ht : d'.rxTail = d.rxTail + 1)

/-- The transmit FIFO keeps its bytes, gives up its head to the shift register of an engine that becomes busy, or
gains a byte at its tail, cursors in step (R18, R19). -/
inductive Device.TxStep (d d' : Device) : Prop
  | keep (hq : d'.txq = d.txq) (hh : d'.txHead = d.txHead) (ht : d'.txTail = d.txTail)
  | pop (b : Byte) (hq : d.txq = b :: d'.txq) (hh : d'.txHead = d.txHead + 1) (ht : d'.txTail = d.txTail)
      (hshift : d'.shiftTx = b) (hidle : d.busy = false) (hbusy : d'.busy = true)
  | push (b : Byte) (hq : d'.txq = d.txq ++ [b]) (hh : d'.txHead = d.txHead) (ht : d'.txTail = d.txTail + 1)

theorem Device.AccessStep.rxStep (h : d.AccessStep cfg d') : d.RxStep d' := by
  cases h with
  | popRx b q hq => exact .pop b hq rfl rfl
  | _ => exact .keep rfl rfl rfl

theorem Device.AccessStep.txStep (h : d.AccessStep cfg d') : d.TxStep d' := by
  cases h with
  | pushTx b _ => exact .push b rfl rfl rfl
  | _ => exact .keep rfl rfl rfl

/-- Of the agents' steps, only a completion that is not discarded reaches the receive FIFO (R141). -/
theorem Device.AnyStep.rxStep (h : d.AnyStep cfg d') : d.RxStep d' := by
  cases h with
  | access ha => exact ha.rxStep
  | launch _ => rcases d.launch_cases cfg with ⟨b, q, -, he⟩ | ⟨-, he⟩ <;> rw [he] <;> exact .keep rfl rfl rfl
  | complete r _ =>
    rcases d.complete_cases r with ⟨-, he⟩ | ⟨-, he⟩
    · rw [he]; exact .push r rfl rfl rfl
    · rw [he]; exact .keep rfl rfl rfl
  | pin p => rw [Device.pinChange_frame]; exact .keep rfl rfl rfl
  | tick => exact .keep rfl rfl rfl

/-- Of the agents' steps, only a launch with bytes queued reaches the transmit FIFO (R140). -/
theorem Device.AnyStep.txStep (h : d.AnyStep cfg d') : d.TxStep d' := by
  cases h with
  | access ha => exact ha.txStep
  | launch hc =>
    obtain ⟨hidle, -, -⟩ := Device.canLaunch_iff.mp hc
    rcases d.launch_cases cfg with ⟨b, q, hq, he⟩ | ⟨-, he⟩
    · rw [he]; exact .pop b hq rfl rfl rfl hidle rfl
    · rw [he]; exact .keep rfl rfl rfl
  | complete r _ => rcases d.complete_cases r with ⟨-, he⟩ | ⟨-, he⟩ <;> rw [he] <;> exact .keep rfl rfl rfl
  | pin p => rw [Device.pinChange_frame]; exact .keep rfl rfl rfl
  | tick => exact .keep rfl rfl rfl

end Sys2Proof.Machine

namespace Sys2Proof

open Machine

/-- Settles O58: a step does to the board what one operation or one agent's step can do, each of which keeps R37. -/
theorem stepKeepsTheInvariants : Obligations.StepKeepsTheInvariants := by
  intro s t hi h
  have heffect := step_effect h
  refine ⟨heffect.cfg ▸ hi.params, ?_⟩
  rw [heffect.cfg]
  exact heffect.dev.inv hi.params hi.device

/-- Settles O59: the cases of `RxStep` and `TxStep`, the byte popped from the receive FIFO being the one read. -/
theorem fifosLoseAndReorderNothing : Obligations.FifosLoseAndReorderNothing := by
  intro s t h
  have heffect := step_effect h
  constructor
  · cases heffect.dev.rxStep with
    | keep hq hh ht => exact .inl ⟨hq, hh, ht⟩
    | pop b hq hh ht => exact .inr (.inl ⟨b, hq, hh, ht, heffect.popped b hq⟩)
    | push b hq hh ht => exact .inr (.inr ⟨b, hq, hh, ht⟩)
  · cases heffect.dev.txStep with
    | keep hq hh ht => exact .inl ⟨hq, hh, ht⟩
    | pop b hq hh ht hshift hidle hbusy => exact .inr (.inl ⟨b, hq, hh, ht, hshift, hidle, hbusy⟩)
    | push b hq hh ht => exact .inr (.inr ⟨b, hq, hh, ht⟩)

end Sys2Proof
end

section
/-! What one step of the machine can do to the host (`step_host`), said once over all events as `step_effect` says
it of the board; then the host's invariants (O53) and the changes of `lastFired` (O43). -/

namespace Sys2Proof.Machine

variable {cfg : Params} {caught : Byte → Prop} {h k l : HostState} {s t u : State}

/-! ## Steps of the host -/

/-- Of the host, a step left alone what the invariants speak of, and did not come to stand before registration. -/
structure HostState.Keeps (h k : HostState) : Prop where
  ictx : k.ictx = h.ictx
  iters : k.iters = h.iters
  cal : k.cal = h.cal
  probed : k.probed = h.probed
  registered : k.registered = h.registered
  handler : k.handler = h.handler
  app : k.app = .register → h.app = .register

theorem HostState.Keeps.refl (h : HostState) : h.Keeps h := ⟨rfl, rfl, rfl, rfl, rfl, rfl, id⟩

theorem HostState.Keeps.trans (hk : h.Keeps k) (kl : k.Keeps l) : h.Keeps l where
  ictx := kl.ictx.trans hk.ictx
  iters := kl.iters.trans hk.iters
  cal := kl.cal.trans hk.cal
  probed := kl.probed.trans hk.probed
  registered := kl.registered.trans hk.registered
  handler := kl.handler.trans hk.handler
  app := fun hl => hk.app (kl.app hl)

/-- Everything one step of the application context can do to the host. -/
inductive HostState.AppStep (cfg : Params) (h : HostState) : HostState → Prop
  | keeps {k : HostState} (hk : h.Keeps k) : AppStep cfg h k
  | create (b : Option Addr) (n : Option Nat) (g : Nat) (happ : h.app = .init b n g) (hh : h.handler = .idle)
      (addr : Addr) (line : IrqLine) :
      AppStep cfg h { h with
        base := addr, irqLine := line, bound := true
        ictx := { boardAddr := addr, signalId := g, lastFired := 0 }, app := .idle, result := .done }
  | callRegister (hp : h.probed = true) : AppStep cfg h { h with app := .register }
  | register (happ : h.app = .register) :
      AppStep cfg h { h with registered := true, app := .idle, result := .done }
  | deregister : AppStep cfg h { h with registered := false, app := .idle, result := .done }
  | probe (v : Version) :
      AppStep cfg h { h with probed := true, version := v, app := .idle, result := .version v }
  | measure (hc : h.cal ≠ .done) (scale : Nat) (first : Bool) :
      AppStep cfg h { h with cal := .measure scale first, app := .calibrate .disablePreemption }
  | calibrated (hc : h.cal ≠ .done) (n : Nat) (hn : cfg.wf = true → 1 ≤ n) (c : CalCondition) :
      AppStep cfg h { h with iters := some n, cal := .done, app := .idle, result := .calibrated c }

/-- Everything one step of any agent can do to the host; the handler stores a byte it has `caught`. -/
inductive HostState.AnyStep (cfg : Params) (caught : Byte → Prop) (h : HostState) : HostState → Prop
  | app {k : HostState} (hk : h.AppStep cfg k) : AnyStep cfg caught h k
  | dispatch (hr : h.registered = true) : AnyStep cfg caught h { h with handler := .readFired }
  | capture (hh : h.handler = .readFired) (x : Byte) (hx : caught x) :
      AnyStep cfg caught h { h with ictx := { h.ictx with lastFired := x }, handler := .clearFired }
  | clear (hh : h.handler = .clearFired) : AnyStep cfg caught h { h with handler := .raiseSignal }
  | leave (n : Nat) : AnyStep cfg caught h { h.raise n with handler := .idle }

theorem HostState.Keeps.anyStep (hk : h.Keeps k) : h.AnyStep cfg caught k := .app (.keeps hk)

/-- The byte the handler's read of INT_FIRED in the step from `s` to `t` returns: FIRED, where the interrupt context
stands at the address of a board that is present (R29, R172, R180). -/
def State.Caught (s t : State) (x : Byte) : Prop :=
  x = t.readData ∧ (s.cfg.wf = true → s.host.ictx.boardAddr = s.cfg.place.base → s.env.boardPresent = true →
    x = s.dev.fired)

/-! ## Transactions -/

/-- An access to the address where the board stands performs the operation meant (R81, R41). -/
theorem hostAccess_attached (hw : s.cfg.wf = true) (i : Instr) :
    hostAccess s.cfg.place.base i s = exec i s := by
  obtain ⟨-, haccess, hdecode⟩ := everyOperationDecodesAtItsBusAddress s.cfg.place (Params.wf_place hw) i
  change runAccess (encodeAccess s.cfg.place i) s = _
  simp only [runAccess, State.placement, haccess, runCycle, hdecode]

theorem execRdIntFired_present (hp : s.env.boardPresent = true) :
    exec .rdIntFired s = .next (s.answer s.dev.fired) := by
  rw [exec, execRdIntFired, plainRead, readAccess_present hp]

/-- RD.IDENT, on a board present or absent, moves IDPTR at most (R101). -/
theorem execRdIdent_dev (h : exec .rdIdent s = .next t) : t.dev = { s.dev with idptr := t.dev.idptr } := by
  rcases readAccess_next (show execRdIdent s = .next t from h) with ⟨-, hk⟩ | ⟨-, rfl⟩
  · cases hk; rfl
  · rfl

theorem rejected_host {e : DecodeError} {w : Bool} (h : rejected e w s = .next t) : t.host = s.host := by
  rw [rejected_frame h]

theorem rejected_dev {e : DecodeError} {w : Bool} (h : rejected e w s = .next t) : t.dev = s.dev := by
  rw [rejected_frame h]

theorem HostState.Keeps.noteIssued (s : State) (i : Instr) : s.host.Keeps (s.noteIssued i).host :=
  ⟨by simp, by simp, by simp, by simp, by simp, by simp, by simp⟩

/-- A line of the application context is no step of its procedures. -/
theorem hostLine_host {c : Except DecodeError BusCycle} {w : Bool} (h : hostLine c w s = .next t) :
    s.host.Keeps t.host := by
  obtain ⟨-, -, ⟨i, -, u, hu, rfl⟩ | ⟨e, w', hr⟩⟩ := hostLine_next h
  · exact exec_host hu ▸ .noteIssued u i
  · exact rejected_host hr ▸ .refl _

/-! ## The application context's procedures -/

/-- The procedure goes on or ends beside the board. -/
structure State.MovesOn (s t : State) : Prop where
  dev : t.dev = s.dev
  host : s.host.Keeps t.host

/-- What a step of a procedure does: to the host, one of `AppStep`'s; to the device, nothing, or what a transaction
that was allowed does to it. -/
structure ProcEffect (s t : State) : Prop where
  host : s.host.AppStep s.cfg t.host
  dev : t.dev = s.dev ∨
    ∃ i u, s.lineBar i = none ∧ hostAccess s.host.base i s = .next u ∧ t.dev = u.dev

theorem State.MovesOn.effect (h : s.MovesOn t) : ProcEffect s t := ⟨.keeps h.host, .inl h.dev⟩

theorem ProcEffect.beside (hd : t.dev = s.dev) (hh : s.host.AppStep s.cfg t.host) : ProcEffect s t := ⟨hh, .inl hd⟩

theorem goto_movesOn {a : AppState} (h : (Host.Outcome.next (s.goto a) : Out) = .next t)
    (ha : a ≠ .register) : s.MovesOn t := by
  cases h; exact ⟨rfl, rfl, rfl, rfl, rfl, rfl, rfl, fun he => absurd he ha⟩

theorem finish_movesOn {r : Result} (h : (Host.Outcome.next (s.finish r) : Out) = .next t) : s.MovesOn t := by
  cases h; exact ⟨rfl, rfl, rfl, rfl, rfl, rfl, rfl, nofun⟩

theorem pollAgain_movesOn {p c : Nat} {again : Nat → AppState} (h : pollAgain s p c again = .next t)
    (ha : ∀ n, again n ≠ .register) : s.MovesOn t := by
  rcases pollAgain_next h with rfl | rfl
  · exact goto_movesOn rfl (ha _)
  · exact finish_movesOn rfl

/-- A transaction of a procedure that then moves on: the host's part is the note of what was issued. -/
theorem ProcEffect.transact {i : Instr} (hb : s.lineBar i = none) (hu : hostAccess s.host.base i s = .next u)
    (hm : (u.noteIssued i).MovesOn t) : ProcEffect s t where
  host := .keeps (hostAccess_host hu ▸ (HostState.Keeps.noteIssued u i).trans hm.host)
  dev := .inr ⟨i, u, hb, hu, hm.dev.trans (State.noteIssued_dev u i)⟩

theorem rd_effect {i : Instr} {k : Byte → State → Out} (h : rd i s k = .next t)
    (hk : ∀ v u, k v u = .next t → u.MovesOn t) : ProcEffect s t := by
  obtain ⟨hb, u, hu, ht⟩ := rd_next h
  exact .transact hb hu (hk _ _ ht)

theorem wr_effect {i : Instr} {k : State → Out} (h : wr i s k = .next t)
    (hk : ∀ u, k u = .next t → u.MovesOn t) : ProcEffect s t := by
  obtain ⟨hb, u, hu, ht⟩ := wr_next h
  exact .transact hb hu (hk _ ht)

/-- R104: PROBED is written by a search that finds a supported version, and by nothing else. -/
theorem probeStep_effect {w : List Byte} (h : probeStep w s = .next t) : ProcEffect s t := by
  obtain ⟨hb, u, hu, hk⟩ := rd_next h
  dsimp only at hk
  split at hk
  · exact .transact hb hu (goto_movesOn hk nofun)
  · cases hv : searchWindow (w ++ [u.readData]) with
    | found ver =>
      rw [hv] at hk; cases hk
      exact ⟨hostAccess_host hu ▸ .probe ver, .inr ⟨_, u, hb, hu, rfl⟩⟩
    | unsupported ver => rw [hv] at hk; exact .transact hb hu (finish_movesOn hk)
    | notFound => rw [hv] at hk; exact .transact hb hu (finish_movesOn hk)

theorem spiReadStep_effect {pc : ReadPc} {v : ReadVars} (h : spiReadStep pc v s = .next t) : ProcEffect s t := by
  cases pc with
  | lenHi => exact wr_effect h fun _ hk => goto_movesOn hk nofun
  | feed => exact wr_effect h fun _ hk => goto_movesOn hk nofun
  | head =>
    simp only [spiReadStep] at h
    refine rd_effect h fun _ _ hk => ?_
    split at hk
    · exact finish_movesOn hk
    · exact goto_movesOn hk nofun
  | poll =>
    simp only [spiReadStep] at h
    refine rd_effect h fun _ _ hk => ?_
    split at hk
    · exact pollAgain_movesOn hk nofun
    · exact goto_movesOn hk nofun
  | copy =>
    simp only [spiReadStep] at h
    refine rd_effect h fun _ _ hk => ?_
    split at hk
    · split at hk
      · exact finish_movesOn hk
      · exact goto_movesOn hk nofun
    · exact goto_movesOn hk nofun

theorem spiRead1Step_effect {pc : Read1Pc} (h : spiRead1Step pc s = .next t) : ProcEffect s t := by
  cases pc with
  | lenHi => exact wr_effect h fun _ hk => goto_movesOn hk nofun
  | feed => exact wr_effect h fun _ hk => goto_movesOn hk nofun
  | head =>
    simp only [spiRead1Step] at h
    exact rd_effect h fun _ _ hk => goto_movesOn hk nofun
  | spin hd p =>
    simp only [spiRead1Step] at h
    refine rd_effect h fun _ _ hk => ?_
    split at hk
    · exact pollAgain_movesOn hk nofun
    · exact goto_movesOn hk nofun
  | data =>
    simp only [spiRead1Step] at h
    exact rd_effect h fun _ _ hk => finish_movesOn hk

theorem spiWriteStep_effect {pc : WritePc} {v : WriteVars} (h : spiWriteStep pc v s = .next t) :
    ProcEffect s t := by
  cases pc with
  | lenHi => exact wr_effect h fun _ hk => goto_movesOn hk nofun
  | discard => exact wr_effect h fun _ hk => goto_movesOn hk nofun
  | tail =>
    simp only [spiWriteStep] at h
    exact rd_effect h fun _ _ hk => goto_movesOn hk nofun
  | poll =>
    simp only [spiWriteStep] at h
    refine rd_effect h fun _ _ hk => ?_
    split at hk
    · exact pollAgain_movesOn hk nofun
    · exact goto_movesOn hk nofun
  | push =>
    simp only [spiWriteStep] at h
    refine wr_effect h fun _ hk => ?_
    split at hk
    · exact goto_movesOn hk nofun
    · exact goto_movesOn hk nofun
  | status =>
    simp only [spiWriteStep] at h
    refine rd_effect h fun _ _ hk => ?_
    split at hk
    · exact finish_movesOn hk
    · exact pollAgain_movesOn hk nofun

theorem spiWrite1Step_effect {pc : Write1Pc} {b : Byte} (h : spiWrite1Step pc b s = .next t) : ProcEffect s t := by
  cases pc with
  | lenHi => exact wr_effect h fun _ hk => goto_movesOn hk nofun
  | discard => exact wr_effect h fun _ hk => goto_movesOn hk nofun
  | tail =>
    simp only [spiWrite1Step] at h
    exact rd_effect h fun _ _ hk => goto_movesOn hk nofun
  | spin tl p =>
    simp only [spiWrite1Step] at h
    refine rd_effect h fun _ _ hk => ?_
    split at hk
    · exact goto_movesOn hk nofun
    · exact pollAgain_movesOn hk nofun
  | data => exact wr_effect h fun _ hk => goto_movesOn hk nofun
  | status p =>
    simp only [spiWrite1Step] at h
    refine rd_effect h fun _ _ hk => ?_
    split at hk
    · exact finish_movesOn hk
    · exact pollAgain_movesOn hk nofun

theorem resetInterruptStep_effect {m : Option Byte} (h : resetInterruptStep m s = .next t) : ProcEffect s t := by
  cases m with
  | none => exact (goto_movesOn h nofun).effect
  | some m => exact wr_effect h fun _ hk => finish_movesOn hk

theorem waitStep_effect {k : State → Out} (h : waitStep s k = .next t)
    (hk : ∀ u, k u = .next t → u.MovesOn t) : ProcEffect s t := by
  unfold waitStep at h
  split at h
  · have hm := hk _ h
    have hclear : s.host.Keeps (s.host.clear s.host.ictx.signalId) := ⟨rfl, rfl, rfl, rfl, rfl, rfl, id⟩
    exact .beside hm.dev (.keeps (hclear.trans hm.host))
  · cases h

theorem ticksStep_effect {pc : TickPc} {next : TickPc → AppState} {k : Tick → State → Out}
    (h : ticksStep pc s next k = .next t) (hn : ∀ p, next p ≠ .register)
    (hk : ∀ v u, k v u = .next t → u.MovesOn t) : ProcEffect s t := by
  cases pc with
  | hi =>
    simp only [ticksStep] at h
    exact rd_effect h fun _ _ hg => goto_movesOn hg (hn _)
  | mid a =>
    simp only [ticksStep] at h
    exact rd_effect h fun _ _ hg => goto_movesOn hg (hn _)
  | lo a b =>
    simp only [ticksStep] at h
    exact rd_effect h fun _ _ hg => hk _ _ hg

theorem delayStep_effect {n : Nat} {dl : Option Tick} {pc : TickPc} (h : delayStep n dl pc s = .next t) :
    ProcEffect s t := by
  refine ticksStep_effect h nofun fun _ _ hk => ?_
  split at hk
  · exact goto_movesOn hk nofun
  · split at hk
    · exact finish_movesOn hk
    · exact goto_movesOn hk nofun

theorem Params.wf_fallback (hw : cfg.wf = true) : 1 ≤ cfg.calFallbackIters := by
  simp only [Params.wf, Bool.and_eq_true, decide_eq_true_eq] at hw
  exact hw.2

/-- R216, R217: a calibration that ends, ends with a positive result: the fallback's or one more than a ceiling. -/
theorem judge_stop_pos {scale n : Nat} {first : Bool} {m : Int} {c : CalCondition}
    (h : judge cfg scale first m = .stop n c) (hw : cfg.wf = true) : 1 ≤ n := by
  unfold judge at h
  split at h
  · cases h; exact Params.wf_fallback hw
  · split at h
    · cases h; exact Nat.le_add_left _ _
    · split at h
      · cases h; exact Params.wf_fallback hw
      · cases h

theorem wallClock_dev (s : State) : s.wallClock.2.dev = s.dev := (BoardFrame.wallClock s).dev

theorem wallClock_host (s : State) : s.wallClock.2.host = s.host := by
  unfold State.wallClock; split <;> rfl

/-- Taking a clock sample is beside the board and the host. -/
theorem State.MovesOn.sample (h : s.wallClock.2.MovesOn t) : s.MovesOn t :=
  ⟨h.dev.trans (wallClock_dev s), wallClock_host s ▸ h.host⟩

theorem calibrateStep_effect {pc : CalPc} (h : calibrateStep pc s = .next t) : ProcEffect s t := by
  cases pc with
  | disablePreemption => cases h; exact .beside rfl (.keeps ⟨rfl, rfl, rfl, rfl, rfl, rfl, nofun⟩)
  | sampleBefore => exact (goto_movesOn h nofun).sample.effect
  | loop t0 => exact (goto_movesOn h nofun).effect
  | sampleAfter t0 => exact (goto_movesOn h nofun).sample.effect
  | enablePreemption t0 t1 => cases h; exact .beside rfl (.keeps ⟨rfl, rfl, rfl, rfl, rfl, rfl, nofun⟩)
  | decide m =>
    unfold calibrateStep at h
    dsimp only at h
    split at h
    · next scale first hcal =>
      have hc : s.host.cal ≠ .done := by rw [hcal]; exact nofun
      split at h
      · cases h; exact .beside rfl (.measure hc _ _)
      · next n c hj => cases h; exact .beside rfl (.calibrated hc n (judge_stop_pos hj) c)
    · cases h

theorem shortWaitStep_effect (h : shortWaitStep s = .next t) : ProcEffect s t := by
  unfold shortWaitStep at h
  split at h
  · cases h; exact .beside rfl (.keeps ⟨rfl, rfl, rfl, rfl, rfl, rfl, nofun⟩)
  · cases h

theorem openTimerStep_effect (h : openTimerStep s = .next t) : ProcEffect s t := by
  unfold openTimerStep at h
  split at h
  · cases h; exact .beside rfl (.keeps ⟨rfl, rfl, rfl, rfl, rfl, rfl, nofun⟩)
  · exact (finish_movesOn h).effect

theorem waitDeadlineStep_effect {n : Nat} {sigs : List Nat} (h : waitDeadlineStep n sigs s = .next t) :
    ProcEffect s t := by
  unfold waitDeadlineStep at h
  dsimp only at h
  split at h
  · cases h; exact .beside rfl (.keeps ⟨rfl, rfl, rfl, rfl, rfl, rfl, nofun⟩)
  · split at h
    · cases h; exact .beside rfl (.keeps ⟨rfl, rfl, rfl, rfl, rfl, rfl, nofun⟩)
    · split at h
      · cases h; exact .beside rfl (.keeps ⟨rfl, rfl, rfl, rfl, rfl, rfl, nofun⟩)
      · cases h

/-- The application context's step, taken while the handler is idle (R52). -/
theorem procStep_effect (hh : s.host.handler = .idle) (h : procStep s = .next t) : ProcEffect s t := by
  unfold procStep at h
  generalize happ : s.host.app = a at h
  cases a with
  | idle => cases h
  | init b n g => cases h; exact .beside rfl (.create b n g happ hh _ _)
  | register => cases h; exact .beside rfl (.register happ)
  | deregister => cases h; exact .beside rfl .deregister
  | destroy => cases h; exact .beside rfl (.keeps ⟨rfl, rfl, rfl, rfl, rfl, rfl, nofun⟩)
  | closeTimer n => cases h; exact .beside rfl (.keeps ⟨rfl, rfl, rfl, rfl, rfl, rfl, nofun⟩)
  | probe w => exact probeStep_effect h
  | calibrate pc => exact calibrateStep_effect h
  | arm => exact wr_effect h fun _ hk => finish_movesOn hk
  | disarm => exact wr_effect h fun _ hk => finish_movesOn hk
  | pinState => exact rd_effect h fun _ _ hk => finish_movesOn hk
  | select v => exact wr_effect h fun _ hk => finish_movesOn hk
  | deselect => exact wr_effect h fun _ hk => goto_movesOn hk nofun
  | resetInterrupt m => exact resetInterruptStep_effect h
  | waitSignal => exact waitStep_effect h fun _ hk => finish_movesOn hk
  | consume => exact waitStep_effect h fun _ hk => goto_movesOn hk nofun
  | spiRead pc v => exact spiReadStep_effect h
  | spiRead1 pc => exact spiRead1Step_effect h
  | spiWrite pc v => exact spiWriteStep_effect h
  | spiWrite1 pc b => exact spiWrite1Step_effect h
  | readTicks pc => exact ticksStep_effect h nofun fun _ _ hk => finish_movesOn hk
  | delay n dl pc => exact delayStep_effect h
  | shortWait => exact shortWaitStep_effect h
  | openTimer => exact openTimerStep_effect h
  | waitDeadline n sigs => exact waitDeadlineStep_effect h

theorem inHandler_eq_false : h.inHandler = false ↔ h.handler = .idle := by
  simp only [HostState.inHandler, bne_eq_false_iff_eq]

theorem appStep_next (h : appStep s = .next t) : s.host.handler = .idle ∧ procStep s = .next t := by
  unfold appStep at h
  split at h
  · cases h
  · next hn => exact ⟨inHandler_eq_false.mp (Bool.eq_false_iff.mpr hn), h⟩

theorem appStep_effect (h : appStep s = .next t) : ProcEffect s t := by
  obtain ⟨hh, hp⟩ := appStep_next h
  exact procStep_effect hh hp

/-! ## Calls -/

theorem goto_host {a : AppState} (h : (Host.Outcome.next (s.goto a) : Out) = .next t)
    (ha : a ≠ .register) : s.host.AppStep s.cfg t.host :=
  .keeps (goto_movesOn h ha).host

theorem boardCall_host {b : Bool} {a : AppState} (h : boardCall s b a = .next t) (ha : a ≠ .register) :
    s.host.AppStep s.cfg t.host := by
  rw [(boardCall_next h).2]; exact goto_host rfl ha

theorem probedCall_host {a : AppState} (h : probedCall s a = .next t) (ha : a ≠ .register) :
    s.host.AppStep s.cfg t.host := boardCall_host h ha

/-- Registration stands behind the probe (R108, R187). -/
theorem callRegister_host (h : probedCall s .register = .next t) : s.host.AppStep s.cfg t.host := by
  obtain ⟨hbar, rfl⟩ := boardCall_next h
  obtain ⟨-, hp | hfalse⟩ := earlyBar_none hbar
  · exact .callRegister hp
  · cases hfalse

theorem callCalibrate_host (h : callCalibrate s = .next t) : s.host.AppStep s.cfg t.host := by
  unfold callCalibrate at h
  split at h
  · next hidle =>
    have hc : s.host.cal ≠ .done := by rw [hidle]; exact nofun
    split at h
    · cases h; exact .measure hc _ _
    · cases h; exact .calibrated hc _ Params.wf_fallback _
  · cases h

theorem readEntry_ne_register (n : Count) : readEntry n ≠ .register := by
  unfold readEntry; split <;> exact nofun

theorem writeEntry_ne_register (buf : List Byte) : writeEntry buf ≠ .register := by
  unfold writeEntry; split <;> exact nofun

theorem enter_host {p : Call} (h : enter p s = .next t) : s.host.AppStep s.cfg t.host := by
  cases p with
  | register => exact callRegister_host h
  | calibrate => exact callCalibrate_host h
  | init b n g => exact goto_host h nofun
  | destroy => exact goto_host h nofun
  | deregister => exact goto_host h nofun
  | waitSignal => exact goto_host h nofun
  | openTimer => exact goto_host h nofun
  | closeTimer n => exact goto_host h nofun
  | shortWait =>
    simp only [enter] at h; split at h
    · cases h
    · exact goto_host h nofun
  | waitDeadline n us sigs =>
    simp only [enter] at h; split at h
    · cases h; exact .keeps ⟨rfl, rfl, rfl, rfl, rfl, rfl, nofun⟩
    · cases h
  | spiWrite buf =>
    simp only [enter] at h; split at h
    · exact probedCall_host h (writeEntry_ne_register buf)
    · cases h
  | delay n =>
    simp only [enter] at h; split at h
    · exact probedCall_host h nofun
    · cases h
  | spiRead n => exact probedCall_host h (readEntry_ne_register n)
  | probe => exact boardCall_host h nofun
  | arm => exact probedCall_host h nofun
  | disarm => exact probedCall_host h nofun
  | resetInterrupt => exact probedCall_host h nofun
  | consume => exact probedCall_host h nofun
  | pinState => exact probedCall_host h nofun
  | spiRead1 => exact probedCall_host h nofun
  | spiWrite1 b => exact probedCall_host h nofun
  | readTicks => exact probedCall_host h nofun
  | select v => exact probedCall_host h nofun
  | deselect => exact probedCall_host h nofun

theorem startCall_host {ctx : Context} {p : Call} (h : startCall ctx p s = .next t) :
    s.host.AppStep s.cfg t.host := by
  unfold startCall at h
  split at h
  · cases h
  · split at h
    · cases h
    · split at h
      · exact enter_host h
      · cases h

/-! ## The interrupt and the timer -/

theorem irqDispatch_next (h : irqDispatch s = .next t) : s.host.dispatchable = true ∧ t = s.takeInterrupt := by
  unfold irqDispatch at h
  split at h
  · next hd => exact ⟨(Bool.and_eq_true_iff.mp hd).2, (Host.Outcome.next.inj h).symm⟩
  · cases h

theorem irqSpurious_next (h : irqSpurious s = .next t) : s.host.dispatchable = true ∧ t = s.takeInterrupt := by
  unfold irqSpurious at h
  split at h
  · exact ⟨‹_›, (Host.Outcome.next.inj h).symm⟩
  · cases h

theorem takeInterrupt_host (hd : s.host.dispatchable = true) :
    s.host.AnyStep cfg caught s.takeInterrupt.host := by
  simp only [HostState.dispatchable, Bool.and_eq_true] at hd
  exact .dispatch hd.1.1

theorem deadlinePasses_next (h : deadlinePasses s = .next t) :
    ∃ x, t = s.setHost { s.host with timer := x } := by
  unfold deadlinePasses at h
  split at h
  · split at h
    · cases h
    · exact ⟨_, (Host.Outcome.next.inj h).symm⟩
  · cases h

/-- The byte that the handler's read returns is caught: on an attached, present board it is FIRED. -/
theorem caught_of_rdIntFired (hu : hostAccess s.host.ictx.boardAddr .rdIntFired s = .next u)
    (hr : t.readData = u.readData) : s.Caught t u.readData := by
  refine ⟨hr.symm, fun hw hb hp => ?_⟩
  rw [hb, hostAccess_attached hw, execRdIntFired_present hp] at hu
  cases hu; rfl

theorem handlerStep_host (h : handlerStep s = .next t) : s.host.AnyStep s.cfg (s.Caught t) t.host := by
  unfold handlerStep at h
  generalize hh : s.host.handler = p at h
  cases p with
  | idle => cases h
  | readFired =>
    obtain ⟨u, hu, hk⟩ := andThen_next h
    cases hk
    rw [State.setHost_host, hostAccess_host hu]
    exact .capture hh _ (caught_of_rdIntFired hu rfl)
  | clearFired =>
    obtain ⟨u, hu, hk⟩ := andThen_next h
    cases hk
    rw [State.setHost_host, hostAccess_host hu]
    exact .clear hh
  | raiseSignal => cases h; exact .leave _

/-! ## Any event, any step -/

theorem runEvent_host {e : Event} (h : runEvent e s = .next t) : s.host.AnyStep s.cfg (s.Caught t) t.host := by
  cases e with
  | bus c => exact (hostLine_host (c := .ok c) h).anyStep
  | access a => exact (hostLine_host (c := decodeAccess s.placement a) h).anyStep
  | engLaunch => obtain ⟨-, rfl⟩ := engLaunch_next h; exact (HostState.Keeps.refl _).anyStep
  | engComplete r => obtain ⟨-, rfl⟩ := engComplete_next h; exact (HostState.Keeps.refl _).anyStep
  | pinChange p => cases h; exact (HostState.Keeps.refl _).anyStep
  | tickInc => cases h; exact (HostState.Keeps.refl _).anyStep
  | irqDispatch => obtain ⟨hd, rfl⟩ := irqDispatch_next h; exact takeInterrupt_host hd
  | irqSpurious => obtain ⟨hd, rfl⟩ := irqSpurious_next h; exact takeInterrupt_host hd
  | handlerStep => exact handlerStep_host h
  | call ctx p => exact .app (startCall_host h)
  | appStep => exact .app (appStep_effect h).host
  | deadline =>
    obtain ⟨x, rfl⟩ := deadlinePasses_next h
    exact .app (.keeps ⟨rfl, rfl, rfl, rfl, rfl, rfl, id⟩)
  | signal n => cases h; exact .app (.keeps ⟨rfl, rfl, rfl, rfl, rfl, rfl, id⟩)

/-- Whatever a step does, it does to the host what one event can do. -/
theorem step_host (h : step s = .next t) : s.host.AnyStep s.cfg (s.Caught t) t.host := by
  rcases step_cases h with ⟨e, rest, -, h⟩ | ⟨-, rfl | h⟩
  · exact runEvent_host (s := { s with agenda := rest }) h
  · exact (HostState.Keeps.refl _).anyStep
  · exact runEvent_host (s := s.drawn) h

/-! ## The host's invariants (R30, R108, R187, R216) -/

theorem HostState.Keeps.inv (hk : h.Keeps k) (hi : h.Inv) : k.Inv where
  cal := by unfold HostState.CalInv; rw [hk.iters, hk.cal]; exact hi.cal
  registered := by rw [hk.registered, hk.probed]; exact hi.registered
  handler := by rw [hk.handler, hk.probed]; exact hi.handler
  registering := fun ha => hk.probed.trans (hi.registering (hk.app ha))

/-- Before calibration is done there is no result (R30). -/
theorem HostState.CalInv.iters_none (hi : h.CalInv) (hc : h.cal ≠ .done) : h.iters.isSome = false :=
  Bool.eq_false_iff.mpr fun hs => hc (hi.2.mpr hs)

theorem HostState.AppStep.inv (hw : cfg.wf = true) (hs : h.AppStep cfg k) (hi : h.Inv) : k.Inv := by
  obtain ⟨hcal, hreg, hhandler, hregistering⟩ := hi
  cases hs with
  | keeps hk => exact hk.inv ⟨hcal, hreg, hhandler, hregistering⟩
  | create b n g _ _ addr line => exact ⟨hcal, hreg, hhandler, nofun⟩
  | callRegister hp => exact ⟨hcal, hreg, hhandler, fun _ => hp⟩
  | register happ => exact ⟨hcal, fun _ => hregistering happ, hhandler, nofun⟩
  | deregister => exact ⟨hcal, nofun, hhandler, nofun⟩
  | probe v => exact ⟨hcal, fun _ => rfl, fun _ => rfl, nofun⟩
  | measure hc scale first =>
    have hnone := hcal.iters_none hc
    exact ⟨⟨hcal.1, nofun, fun hsome => absurd hsome (Bool.eq_false_iff.mp hnone)⟩, hreg, hhandler, nofun⟩
  | calibrated _ n hn c =>
    exact ⟨⟨fun m hm => Option.some.inj hm ▸ hn hw, fun _ => rfl, fun _ => rfl⟩, hreg, hhandler, nofun⟩

theorem HostState.AnyStep.inv (hw : cfg.wf = true) (hs : h.AnyStep cfg caught k) (hi : h.Inv) : k.Inv := by
  cases hs with
  | app hk => exact hk.inv hw hi
  | dispatch hr => exact ⟨hi.cal, hi.registered, fun _ => hi.registered hr, hi.registering⟩
  | capture hh x _ =>
    exact ⟨hi.cal, hi.registered, fun _ => hi.handler (by rw [hh]; exact nofun), hi.registering⟩
  | clear hh => exact ⟨hi.cal, hi.registered, fun _ => hi.handler (by rw [hh]; exact nofun), hi.registering⟩
  | leave n => exact ⟨hi.cal, hi.registered, fun hne => absurd rfl hne, hi.registering⟩

theorem HostState.AppStep.cal_done (hs : h.AppStep cfg k) (hd : h.cal = .done) :
    k.cal = .done ∧ k.iters = h.iters := by
  cases hs with
  | keeps hk => exact ⟨hk.cal.trans hd, hk.iters⟩
  | measure hc _ _ => exact absurd hd hc
  | calibrated hc _ _ _ => exact absurd hd hc
  | _ => exact ⟨hd, rfl⟩

theorem HostState.AnyStep.cal_done (hs : h.AnyStep cfg caught k) (hd : h.cal = .done) :
    k.cal = .done ∧ k.iters = h.iters := by
  cases hs with
  | app hk => exact hk.cal_done hd
  | _ => exact ⟨hd, rfl⟩

/-! ## Changes of `lastFired` (R29, R180) -/

/-- The application context changes `lastFired` only by creating the context. -/
theorem HostState.AppStep.lastFired (hs : h.AppStep cfg k) (hne : k.ictx.lastFired ≠ h.ictx.lastFired) :
    (∃ b n g, h.app = .init b n g) ∧ h.handler = .idle ∧ k.app = .idle ∧ k.ictx.lastFired = 0 := by
  cases hs with
  | keeps hk => exact absurd (congrArg InterruptContext.lastFired hk.ictx) hne
  | create b n g happ hh _ _ => exact ⟨⟨b, n, g, happ⟩, hh, rfl, rfl⟩
  | _ => exact absurd rfl hne

theorem HostState.AnyStep.lastFired (hs : h.AnyStep cfg caught k) (hne : k.ictx.lastFired ≠ h.ictx.lastFired) :
    (h.handler = .readFired ∧ k.handler = .clearFired ∧ caught k.ictx.lastFired) ∨
    ((∃ b n g, h.app = .init b n g) ∧ h.handler = .idle ∧ k.app = .idle ∧ k.ictx.lastFired = 0) := by
  cases hs with
  | app hk => exact .inr (hk.lastFired hne)
  | capture hh x hx => exact .inl ⟨hh, rfl, hx⟩
  | _ => exact absurd rfl hne

/-! ## The board before the probe (R108) -/

/-- What a step can do to the device of an attached driver before the probe: move IDPTR, or be a step of the engine,
of a pin or of the tick counter. -/
inductive Device.UnprobedStep (cfg : Params) (d d' : Device) : Prop
  | ident (h : d' = { d with idptr := d'.idptr })
  | launch (hc : d.canLaunch cfg = true) (h : d' = d.launch cfg)
  | complete (hb : d.busy = true) (r : Byte) (h : d' = d.complete r)
  | pin (p : Pin) (h : d' = d.pinChange cfg p)
  | tick (h : d' = { d with tick := d.tick + 1 })

theorem Device.UnprobedStep.same {d d' : Device} (h : d' = d) : d.UnprobedStep cfg d' := h ▸ .ident rfl

/-- The one operation allowed before the probe is RD.IDENT (R108). -/
theorem eq_rdIdent_of_lineBar {i : Instr} (hp : s.host.probed = false) (h : s.lineBar i = none) : i = .rdIdent := by
  obtain ⟨-, hprobed, -⟩ := lineBar_none h
  exact hprobed.resolve_left (by simp [hp])

theorem hostLine_unprobed {c : Except DecodeError BusCycle} {w : Bool} (hp : s.host.probed = false)
    (h : hostLine c w s = .next t) : s.dev.UnprobedStep s.cfg t.dev := by
  obtain ⟨-, -, ⟨i, hbar, u, hu, rfl⟩ | ⟨e, w', hr⟩⟩ := hostLine_next h
  · obtain rfl := eq_rdIdent_of_lineBar hp hbar
    exact .ident (execRdIdent_dev hu)
  · exact .same (rejected_dev hr)

theorem ProcEffect.unprobed (hw : s.cfg.wf = true) (hbase : s.host.base = s.cfg.place.base)
    (hp : s.host.probed = false) (h : ProcEffect s t) : s.dev.UnprobedStep s.cfg t.dev := by
  rcases h.dev with hd | ⟨i, u, hbar, hu, hd⟩
  · exact .same hd
  · obtain rfl := eq_rdIdent_of_lineBar hp hbar
    rw [hbase, hostAccess_attached hw] at hu
    rw [hd]; exact .ident (execRdIdent_dev hu)

/-- Before the probe the handler is not running: its step is refused. -/
theorem handlerStep_idle (hh : s.host.handler = .idle) : handlerStep s = .refused (.notEnabled .handlerStep) := by
  unfold handlerStep; rw [hh]

theorem runEvent_unprobed {e : Event} (hw : s.cfg.wf = true) (hbase : s.host.base = s.cfg.place.base)
    (hidle : s.host.handler = .idle) (hp : s.host.probed = false) (h : runEvent e s = .next t) :
    s.dev.UnprobedStep s.cfg t.dev := by
  cases e with
  | bus c => exact hostLine_unprobed (c := .ok c) hp h
  | access a => exact hostLine_unprobed (c := decodeAccess s.placement a) hp h
  | engLaunch => obtain ⟨hc, rfl⟩ := engLaunch_next h; exact .launch hc rfl
  | engComplete r => obtain ⟨hb, rfl⟩ := engComplete_next h; exact .complete hb r rfl
  | pinChange p => cases h; exact .pin p rfl
  | tickInc => cases h; exact .tick rfl
  | irqDispatch => obtain ⟨-, rfl⟩ := irqDispatch_next h; exact .same rfl
  | irqSpurious => obtain ⟨-, rfl⟩ := irqSpurious_next h; exact .same rfl
  | handlerStep => cases (handlerStep_idle hidle).symm.trans h
  | call ctx p => exact .same (startCall_board h).dev
  | appStep => exact (appStep_effect h).unprobed hw hbase hp
  | deadline => obtain ⟨x, rfl⟩ := deadlinePasses_next h; exact .same rfl
  | signal n => cases h; exact .same rfl

theorem step_unprobed (ha : s.Attached) (hi : s.host.Inv) (hp : s.host.probed = false) (h : step s = .next t) :
    s.dev.UnprobedStep s.cfg t.dev := by
  have hidle : s.host.handler = .idle := by
    by_contra hne
    exact absurd (hi.handler hne) (by simp [hp])
  rcases step_cases h with ⟨e, rest, -, h⟩ | ⟨-, rfl | h⟩
  · exact runEvent_unprobed (s := { s with agenda := rest }) ha.params ha.base hidle hp h
  · exact .same rfl
  · exact runEvent_unprobed (s := s.drawn) ha.params ha.base hidle hp h

end Sys2Proof.Machine

namespace Sys2Proof

open Machine

/-- Settles O53: the host's rules hold at reset and are kept by each kind of host step, calibration is never redone,
and before the probe the bar lets RD.IDENT alone through. -/
theorem stepKeepsTheHostInvariants : Obligations.StepKeepsTheHostInvariants := by
  refine ⟨HostState.reset_inv, fun s t hw hi h => (step_host h).inv hw hi,
    fun s t h hd => (step_host h).cal_done hd, fun s t ha hi hp h => ?_⟩
  cases step_unprobed ha hi hp h with
  | ident he => exact .inl he
  | launch hc he => exact .inr (.inl ⟨hc, he⟩)
  | complete hb r he => exact .inr (.inr (.inl ⟨hb, r, he⟩))
  | pin p he => exact .inr (.inr (.inr (.inl ⟨p, he⟩)))
  | tick he => exact .inr (.inr (.inr (.inr he)))

/-- Settles O43: of all the host's steps only the handler's capture and the creation of the context write
`lastFired`. -/
theorem lastFiredChangesOnlyByCaptureOrCreation : Obligations.LastFiredChangesOnlyByCaptureOrCreation := by
  intro s t h hne
  rcases (step_host h).lastFired hne with ⟨hread, hclear, hbyte, hfired⟩ | hcreated
  · exact .inl ⟨hread, hclear, hbyte, fun ha hp => hfired ha.params ha.context hp⟩
  · exact .inr hcreated

end Sys2Proof
end

section
/-! The bus as the host sees it (O3, O5, O6, O7, O16, O42): which access performs an operation, what a line of the
application context comes to, and what becomes of a line that selects no operation, finds no board or meets the
running handler. -/

namespace Sys2Proof

open Sys2Proof.Laws

/-! ## A selector belongs to one address and one direction (R41, R60, R61) -/

/-- A window offset is its low six bits. -/
theorem zeroExtend_extract_of_lt {x : Addr} (h : x.toNat < 64) : (x.extractLsb' 0 6).zeroExtend 32 = x := by
  apply BitVec.eq_of_toNat_eq
  simp only [BitVec.toNat_setWidth, BitVec.extractLsb'_toNat, Nat.shiftRight_zero]
  omega

/-- The selector found at an address is that address's own, in the direction of the access. -/
theorem address_of_selectorAt {p : Placement} {w : Bool} {a : Addr} {sel : Selector}
    (h : selectorAt p w a = some sel) : sel.isWrite = w ∧ sel.address p = a := by
  have hdir : ∀ x : BitVec 6, (BitVec.ofBool w ++ x).getLsbD 6 = w := by cases w <;> decide
  have hoff : ∀ x : BitVec 6, (BitVec.ofBool w ++ x).extractLsb' 0 6 = x := by cases w <;> decide
  have hdirTick : ∀ t : BitVec 2, (BitVec.ofBool w ++ t).getLsbD 2 = w := by cases w <;> decide
  have htick : ∀ t : BitVec 2, (BitVec.ofBool w ++ t).extractLsb' 0 2 = t := by cases w <;> decide
  unfold selectorAt at h
  split at h
  · next hwin =>
    cases h
    refine ⟨hdir _, ?_⟩
    rw [Selector.address, hoff, zeroExtend_extract_of_lt hwin, Placement.offset, add_sub_cancel]
  · split at h
    · next ha => cases h; exact ⟨hdirTick _, by rw [Selector.address, htick, ha]; rfl⟩
    · split at h
      · next ha => cases h; exact ⟨hdirTick _, by rw [Selector.address, htick, ha]; rfl⟩
      · split at h
        · next ha => cases h; exact ⟨hdirTick _, by rw [Selector.address, htick, ha]; rfl⟩
        · cases h

/-- An access that is a transaction is one byte wide, and its selector is the one found at its address. -/
theorem decodeAccess_ok {p : Placement} {a : Access} {c : BusCycle} (h : decodeAccess p a = .ok c) :
    a.width = 1 ∧ selectorAt p a.write a.addr = some c.sel ∧ c.data = a.data := by
  unfold decodeAccess at h
  split at h
  · next hw =>
    split at h
    · next hs => cases h; exact ⟨hw, hs, rfl⟩
    · cases h
  · split at h <;> cases h

/-! ## An operation's transaction is its own (R60 to R64) -/

theorem readOf_selector (o : List RegName) (r : RegName) : (readOf r).selector o = regSelector o false r := by
  cases r <;> rfl

theorem writeOf_selector (o : List RegName) (d : Byte) (r : RegName) :
    (writeOf d r).selector o = regSelector o true r := by
  cases r <;> rfl

theorem writeOf_data (d : Byte) (r : RegName) : (writeOf d r).data = d := by
  cases r <;> rfl

/-- A REGFILE selector with lane 00 is the one its register and its direction make. -/
theorem regSelector_regOfIndex {o : List RegName} (ho : orderWf o = true) {v : BitVec 7}
    (hlane : v.extractLsb' 0 2 = 0#2) :
    regSelector o (v.getLsbD 6) (regOfIndex o (v.extractLsb' 2 4)) = .regfile v := by
  have hbits : ∀ v : BitVec 7, v.extractLsb' 0 2 = 0#2 →
      BitVec.ofBool (v.getLsbD 6) ++ v.extractLsb' 2 4 ++ 0#2 = v := by decide
  rw [regSelector, regIndex_regOfIndex ho, hbits v hlane]

/-- Encoding undoes decoding, but for the byte on the bus during a read, which the block ignores (R62). -/
theorem selector_data_of_decode {o : List RegName} (ho : orderWf o = true) {sel : Selector} {d : Byte} {i : Instr}
    (h : decode o ⟨sel, d⟩ = .ok i) : i.selector o = sel ∧ (sel.isWrite = true → i.data = d) := by
  cases sel with
  | regfile v =>
    simp only [decode, decodeRegfile] at h
    split at h
    · next hlane =>
      have hsel := regSelector_regOfIndex ho hlane
      cases hw : v.getLsbD 6 with
      | false =>
        rw [hw] at h hsel; cases h
        exact ⟨(readOf_selector o _).trans hsel, fun hwrite => absurd (hw.symm.trans hwrite) (by decide)⟩
      | true =>
        rw [hw] at h hsel; cases h
        exact ⟨(writeOf_selector o d _).trans hsel, fun _ => writeOf_data d _⟩
    · cases h
  | tickport v =>
    have rows : ∀ v : BitVec 3,
        (v = 0#3 ∨ v = 1#3 ∨ v = 2#3) ∨ (v = 4#3 ∨ v = 5#3 ∨ v = 6#3) ∨ v = 3#3 ∨ v = 7#3 := by decide
    rcases rows v with hread | hwrite | hunused
    · obtain rfl | rfl | rfl := hread <;> cases h <;> exact ⟨rfl, nofun⟩
    · obtain rfl | rfl | rfl := hwrite <;> cases h <;> exact ⟨rfl, fun _ => rfl⟩
    · obtain rfl | rfl := hunused <;> cases h

/-- Settles O3: the selector found at the access's address is the operation's own, and leads back to the address,
the direction and, for a write, the byte. -/
theorem onlyItsBusAccessSelectsAnOperation : Obligations.OnlyItsBusAccessSelectsAnOperation := by
  rintro p ⟨w, a, width, d⟩ ⟨sel, data⟩ i ho haccess hdecode
  obtain ⟨rfl, hfound, rfl⟩ := decodeAccess_ok haccess
  obtain ⟨rfl, rfl⟩ := address_of_selectorAt hfound
  obtain ⟨rfl, hdata⟩ := selector_data_of_decode ho hdecode
  exact ⟨rfl, rfl, rfl, fun hwrite => by rw [encodeAccess, hdata hwrite]⟩

/-! ## Widths (R43) -/

/-- The bytes the block answers at, in either direction: the window's and the three of the tick port. -/
theorem selectorAt_isSome {p : Placement} {w : Bool} {a : Addr} :
    (selectorAt p w a).isSome = true ↔
      (p.offset a).toNat < 64 ∨ a = p.tickHi ∨ a = p.tickMid ∨ a = p.tickLo := by
  unfold selectorAt
  split_ifs with hwin hhi hmid hlo
  · exact iff_of_true rfl (.inl hwin)
  · exact iff_of_true rfl (.inr (.inl hhi))
  · exact iff_of_true rfl (.inr (.inr (.inl hmid)))
  · exact iff_of_true rfl (.inr (.inr (.inr hlo)))
  · exact iff_of_false Bool.false_ne_true (by simp only [hwin, hhi, hmid, hlo, or_self, not_false_eq_true])

/-- An access reaches the block when one of its bytes is one the block answers at. -/
theorem touchesBlock_of_reached {p : Placement} {a : Addr} {width k : Nat} (hk : k < max 1 width) (h32 : k < 2 ^ 32)
    (h : (selectorAt p false (a + BitVec.ofNat 32 k)).isSome = true) : touchesBlock p a width = true :=
  List.any_eq_true.mpr ⟨k, List.mem_range.mpr (lt_min hk h32), h⟩

theorem decodeAccess_badWidth {p : Placement} {a : Access} (hw : a.width ≠ 1)
    (h : touchesBlock p a.addr a.width = true) : decodeAccess p a = .error .badWidth := by
  rw [decodeAccess, if_neg hw, if_pos h]

/-- A byte access to the window between registers is the transaction of a selector without an operation (R42). -/
theorem decodeAccess_betweenRegisters {p : Placement} {a : Access} (hw : a.width = 1)
    (hwin : (p.offset a.addr).toNat < 64) (hlane : (p.offset a.addr).extractLsb' 0 2 ≠ 0#2) :
    ∃ c, decodeAccess p a = .ok c ∧ ∀ o, decode o c = .error .unmappedOffset := by
  obtain ⟨w, a, width, d⟩ := a
  obtain rfl : width = 1 := hw
  refine ⟨_, decodeAccess_of_selectorAt (selectorAt_window hwin), fun o => ?_⟩
  have hlow : (BitVec.ofBool w ++ (p.offset a).extractLsb' 0 6).extractLsb' 0 2 = (p.offset a).extractLsb' 0 2 := by
    have happend : ∀ x : BitVec 6, (BitVec.ofBool w ++ x).extractLsb' 0 2 = x.extractLsb' 0 2 := by
      cases w <;> decide
    rw [happend, BitVec.extractLsb'_extractLsb'_of_le (by decide)]
  simp only [decode, decodeRegfile, hlow, if_neg hlane]

/-! ## What a line of the application context comes to (R50, R52, R81) -/

namespace Machine

variable {s : State} {e : Event} {rest : List Event} {c : BusCycle} {i : Instr} {w : Bool}

/-- R50: where the agenda is not empty, a step is its first event. -/
theorem step_of_agenda (h : s.agenda = e :: rest) : step s = runEvent e { s with agenda := rest } := by
  rw [step, nextStep, h]

theorem inHandler_of_ne_idle {h : HostState} (hh : h.handler ≠ .idle) : h.inHandler = true :=
  bne_iff_ne.mpr hh

theorem hostLine_inHandler {c : Except DecodeError BusCycle} (h : s.host.inHandler = true) :
    hostLine c w s = .refused (.notEnabled .hostLine) :=
  if_pos h

theorem hostLine_error {err : DecodeError} (hr : s.ready) : hostLine (.error err) w s = lineError err w s := by
  obtain ⟨hhandler, happ⟩ := hr
  simp only [hostLine, inHandler_eq_false.mpr hhandler, happ, if_true, Bool.false_eq_true, if_false]

theorem hostLine_undecoded {err : DecodeError} (hr : s.ready) (hd : decode s.cfg.place.order c = .error err) :
    hostLine (.ok c) w s = lineError err w s := by
  obtain ⟨hhandler, happ⟩ := hr
  simp only [hostLine, inHandler_eq_false.mpr hhandler, happ, if_true, Bool.false_eq_true, if_false, hd]

theorem hostLine_decoded (hr : s.ready) (hd : decode s.cfg.place.order c = .ok i) :
    hostLine (.ok c) w s = appIssue i s (exec i) := by
  obtain ⟨hhandler, happ⟩ := hr
  simp only [hostLine, inHandler_eq_false.mpr hhandler, happ, if_true, Bool.false_eq_true, if_false, hd]

/-- R108, R271: once BASE is bound and the board probed, no access is barred; RD.IDENT is not before the probe
either. -/
theorem earlyBar_eq_none {ident : Bool} (hb : s.host.bound = true) (hp : s.host.probed = true ∨ ident = true) :
    s.earlyBar ident = none := by
  rw [State.earlyBar, if_pos hb, if_pos ((Bool.or_eq_true _ _).mpr hp)]

/-- R279: only a write of SS can break the short wait, with a byte that selects a slave while one is owed. -/
theorem holdBreach_eq_false (h : ∀ d, i = .wrSs d → d = s.cfg.ssIdle ∨ s.host.holdOwed = false) :
    s.holdBreach i = false := by
  unfold State.holdBreach
  split
  · next d => rcases h d rfl with hd | hd <;> simp [hd]
  · rfl

theorem lineBar_eq_none (hb : s.host.bound = true) (hp : s.host.probed = true ∨ i = .rdIdent)
    (hh : s.holdBreach i = false) : s.lineBar i = none := by
  rw [State.lineBar, earlyBar_eq_none hb (hp.imp_right beq_iff_eq.mpr), hh]
  rfl

theorem appIssue_of_lineBar {run : State → Out} (h : s.lineBar i = none) :
    appIssue i s run = andThen (run s) fun t => .next (t.noteIssued i) := by
  rw [appIssue, h]

/-- The note, in one equation: only a write of SS_IDLE to SS changes what is owed (R279). -/
theorem noteIssued_eq (t : State) (i : Instr) :
    t.noteIssued i = { t with host := { t.host with
      holdOwed := t.host.holdOwed || i == .wrSs t.cfg.ssIdle } } := by
  unfold State.noteIssued
  split
  · next d =>
    have hbyte : (Instr.wrSs d == .wrSs t.cfg.ssIdle) = (d == t.cfg.ssIdle) := by
      rw [Bool.eq_iff_iff, beq_iff_eq, beq_iff_eq, Instr.wrSs.injEq]
    rw [hbyte]; rfl
  · next hother => rw [beq_eq_false_iff_ne.mpr (hother _), Bool.or_false]

/-- Two ways to go on that agree on every state reached come to the same. -/
theorem andThen_congr {o : Out} {k k' : State → Out} (h : ∀ t, o = .next t → k t = k' t) :
    andThen o k = andThen o k' := by
  cases o with
  | next t => exact h t rfl
  | fault f => rfl
  | refused r => rfl

/-- R81, R108, R271, R279: a ready context's transaction that no bar stops runs its operation, and is noted. The
operation writes no parameter, so the note is of the SS_IDLE of the state before. -/
theorem hostLine_issued (hr : s.ready) (hd : decode s.cfg.place.order c = .ok i) (hb : s.host.bound = true)
    (hp : s.host.probed = true ∨ i = .rdIdent)
    (hh : ∀ d, i = .wrSs d → d = s.cfg.ssIdle ∨ s.host.holdOwed = false) :
    hostLine (.ok c) w s = andThen (exec i s) fun t => .next { t with host := { t.host with
      holdOwed := t.host.holdOwed || i == .wrSs s.cfg.ssIdle } } := by
  rw [hostLine_decoded hr hd, appIssue_of_lineBar (lineBar_eq_none hb hp (holdBreach_eq_false hh))]
  exact andThen_congr fun t ht => by rw [noteIssued_eq, exec_cfg ht]

/-! ## A transaction that selects no operation, on a present board and an absent one (R42, R58) -/

theorem refusedRead_present (h : s.env.boardPresent = true) (r : Refusal) : refusedRead s r = .refused r :=
  readAccess_present h _

theorem refusedWrite_present (h : s.env.boardPresent = true) (r : Refusal) : refusedWrite s r = .refused r :=
  writeAccess_present h _

theorem refusedRead_absent (h : s.env.boardPresent = false) (r : Refusal) : refusedRead s r = .next s.garbled :=
  readAccess_absent h _

theorem refusedWrite_absent (h : s.env.boardPresent = false) (r : Refusal) : refusedWrite s r = .next s :=
  writeAccess_absent h _

/-- R42: on a present board an access that selects no register is refused, read or write. -/
theorem rejected_unmappedOffset (hpresent : s.env.boardPresent = true) :
    rejected .unmappedOffset w s = .refused .unmappedOffset := by
  cases w
  · exact refusedRead_present hpresent .unmappedOffset
  · exact refusedWrite_present hpresent .unmappedOffset

theorem rejected_unmappedOffset_absent (h : s.env.boardPresent = false) :
    rejected .unmappedOffset w s = .next (if w then s else s.garbled) := by
  cases w
  · exact refusedRead_absent h .unmappedOffset
  · exact refusedWrite_absent h .unmappedOffset

theorem lineError_unmappedOffset (hb : s.host.bound = true) (hp : s.host.probed = true) :
    lineError .unmappedOffset w s = rejected .unmappedOffset w s := by
  rw [lineError, earlyBar_eq_none hb (.inl hp)]

/-! ## The window of an absent board (R58) -/

/-- R58: an absent board answers the read of any register with a draw. Each read is an access to the board, which
asks first whether there is one. -/
theorem exec_readOf_absent (h : s.env.boardPresent = false) (r : RegName) :
    exec (readOf r) s = .next s.garbled := by
  have hno : ¬s.env.boardPresent = true := by simp only [h, Bool.false_eq_true, not_false_eq_true]
  cases r <;> exact if_neg hno

/-- R58: an absent board ignores the write of any register, which asks first as a read does. -/
theorem exec_writeOf_absent (h : s.env.boardPresent = false) (d : Byte) (r : RegName) :
    exec (writeOf d r) s = .next s := by
  have hno : ¬s.env.boardPresent = true := by simp only [h, Bool.false_eq_true, not_false_eq_true]
  cases r <;> exact if_neg hno

/-- R58: a byte access to the window of an absent board, at a register or between registers. -/
theorem runCycle_regfile_absent (h : s.env.boardPresent = false) (v : BitVec 7) (d : Byte) :
    runCycle ⟨.regfile v, d⟩ s = .next (if v.getLsbD 6 then s else s.garbled) := by
  by_cases hlane : v.extractLsb' 0 2 = 0#2
  · simp only [runCycle, decode, decodeRegfile, if_pos hlane]
    cases v.getLsbD 6
    · exact exec_readOf_absent h _
    · exact exec_writeOf_absent h d _
  · simp only [runCycle, decode, decodeRegfile, if_neg hlane]
    exact rejected_unmappedOffset_absent h

theorem windowReads_eq : windowReads = defaultOrder.map readOf := rfl

theorem windowWrites_eq (d : Byte) : windowWrites d = defaultOrder.map (writeOf d) := rfl

end Machine

open Machine

/-- Settles O5: the offset's lane selects no register, and nothing bars a driver that is bound and has probed. -/
theorem accessBetweenRegistersRefused : Obligations.AccessBetweenRegistersRefused := by
  intro s a rest hagenda hready hbound hprobed hpresent hwidth hwin hlane
  obtain ⟨c, haccess, hdecode⟩ := decodeAccess_betweenRegisters (p := s.cfg.place) hwidth hwin hlane
  calc step s
    _ = hostLine (decodeAccess s.cfg.place a) a.write { s with agenda := rest } := step_of_agenda hagenda
    _ = lineError .unmappedOffset a.write { s with agenda := rest } := by
        rw [haccess]; exact hostLine_undecoded hready (hdecode _)
    _ = rejected .unmappedOffset a.write { s with agenda := rest } := lineError_unmappedOffset hbound hprobed
    _ = .refused .unmappedOffset := rejected_unmappedOffset hpresent

/-- Settles O6: one byte reached is enough for the access to touch the block, whose width it then has not. -/
theorem wideAccessRefused : Obligations.WideAccessRefused := by
  intro s a rest k reached hagenda hready hwidth hk h32 hreached
  have htouches : touchesBlock s.cfg.place a.addr a.width = true :=
    touchesBlock_of_reached hk h32 (selectorAt_isSome.mpr hreached)
  calc step s
    _ = hostLine (decodeAccess s.cfg.place a) a.write { s with agenda := rest } := step_of_agenda hagenda
    _ = lineError .badWidth a.write { s with agenda := rest } := by
        rw [decodeAccess_badWidth hwidth htouches]; exact hostLine_error hready
    _ = .refused .badWidth := rfl

/-- Settles O7: an event that is a transaction, by selector or by address, is a line of the application context,
which runs the operation it decodes to. -/
theorem stepRunsTheSelectedOperation : Obligations.StepRunsTheSelectedOperation := by
  refine ⟨fun s e rest hagenda => step_of_agenda hagenda,
    fun s e c rest i hagenda hevent hdecode hready hbound hprobed hhold => ?_⟩
  have hissued := fun w =>
    hostLine_issued (s := { s with agenda := rest }) (w := w) hready hdecode hbound hprobed hhold
  rw [step_of_agenda hagenda]
  rcases hevent with rfl | ⟨a, rfl, haccess⟩
  · exact hissued c.sel.isWrite
  · exact (congrArg (hostLine · a.write _) haccess).trans (hissued a.write)

/-- Settles O16: the window's operations are the reads and writes of its registers, and its other selectors are
answered alike; the tick port does not look at the board. -/
theorem absentBoardReadsAreDraws : Obligations.AbsentBoardReadsAreDraws := by
  intro s habsent
  refine ⟨fun i hi => ?_, fun d i hi => ?_, fun v d => ?_, rfl, rfl, rfl, fun d => ⟨rfl, rfl, rfl, rfl, rfl⟩⟩
  · rw [windowReads_eq] at hi
    obtain ⟨r, -, rfl⟩ := List.mem_map.mp hi
    exact exec_readOf_absent habsent r
  · rw [windowWrites_eq] at hi
    obtain ⟨r, -, rfl⟩ := List.mem_map.mp hi
    exact exec_writeOf_absent habsent d r
  · rw [runCycle_regfile_absent habsent]
    cases v.getLsbD 6 <;> rfl

/-- Settles O42: every one of these events asks first that the handler is not running. -/
theorem handlerExcludesTheApplication : Obligations.HandlerExcludesTheApplication := by
  intro s rest hrunning
  have hin : s.host.inHandler = true := inHandler_of_ne_idle hrunning
  have hdispatch : s.host.dispatchable = false := by
    simp only [HostState.dispatchable, hin, Bool.not_true, Bool.and_false, Bool.false_and]
  refine ⟨fun c h => ?_, fun a h => ?_, fun h => ?_, fun p h => ?_, fun h => ?_, fun h => ?_⟩ <;>
    rw [step_of_agenda h]
  · exact hostLine_inHandler (s := { s with agenda := rest }) (c := .ok c) hin
  · exact hostLine_inHandler (s := { s with agenda := rest }) hin
  · exact if_pos hin
  · exact if_pos hin
  · exact if_neg (by simp [hdispatch])
  · exact if_neg (by simp [hdispatch])

end Sys2Proof
end

section
/-! The decoder and the placed word (O1, O4, O8): R64's words written out, the selectors R65 leaves without an
operation, and a table word as the next step. -/

namespace Sys2Proof

/-! ## The selectors without an operation (R60, R61, R65) -/

theorem decode_regfile_of_lane (o : List RegName) {v : BitVec 7} (d : Byte) (h : v.extractLsb' 0 2 = 0#2) :
    ∃ i, decode o ⟨.regfile v, d⟩ = .ok i :=
  ⟨_, if_pos h⟩

theorem decode_regfile_of_lane_ne (o : List RegName) {v : BitVec 7} (d : Byte) (h : v.extractLsb' 0 2 ≠ 0#2) :
    decode o ⟨.regfile v, d⟩ = .error .unmappedOffset :=
  if_neg h

/-- The two TICKPORT selectors with `t = 3`, one for each direction, are unused. -/
theorem decode_tickport_of_three (o : List RegName) {v : BitVec 3} (d : Byte) (h : v.extractLsb' 0 2 = 3#2) :
    decode o ⟨.tickport v, d⟩ = .error .unusedTick := by
  have hrows : ∀ v : BitVec 3, v.extractLsb' 0 2 = 3#2 → v = 3#3 ∨ v = 7#3 := by decide
  obtain rfl | rfl := hrows v h <;> rfl

/-- The other six are R64's reads and writes of the three tick bytes. -/
theorem decode_tickport_of_ne_three (o : List RegName) {v : BitVec 3} (d : Byte) (h : v.extractLsb' 0 2 ≠ 3#2) :
    ∃ i, decode o ⟨.tickport v, d⟩ = .ok i := by
  have hrows : ∀ v : BitVec 3, v.extractLsb' 0 2 ≠ 3#2 →
      (v = 0#3 ∨ v = 1#3 ∨ v = 2#3) ∨ v = 4#3 ∨ v = 5#3 ∨ v = 6#3 := by decide
  rcases hrows v h with hread | hwrite
  · obtain rfl | rfl | rfl := hread <;> exact ⟨_, rfl⟩
  · obtain rfl | rfl | rfl := hwrite <;> exact ⟨_, rfl⟩

/-- A transaction is never both rejected and an operation's: a condition for each, one of which always holds, is
then exact for both. -/
theorem rejects_iff_and_selects_iff {P Q : Prop} {x : Except DecodeError Instr} {e : DecodeError} (hPQ : P ∨ Q)
    (hP : P → x = .error e) (hQ : Q → ∃ i, x = .ok i) : (P ↔ x = .error e) ∧ (Q ↔ ∃ i, x = .ok i) := by
  refine ⟨⟨hP, fun herr => hPQ.resolve_right fun q => ?_⟩, ⟨hQ, fun ⟨i, hok⟩ => hPQ.resolve_left fun p => ?_⟩⟩
  · obtain ⟨i, hok⟩ := hQ q
    exact nomatch herr.symm.trans hok
  · exact nomatch (hP p).symm.trans hok

/-! ## The placed word (log 11) -/

namespace Machine

/-- A word that the default order's decoder reads as an operation is placed as that operation's own transaction on
the board. -/
theorem placedCycle_of_decodeTableWord (o : List RegName) {nbits w : Nat} {i : Instr}
    (h : decodeTableWord nbits w = some i) : placedCycle o nbits w = encode o i := by
  rw [placedCycle, h]

end Machine

open Machine

/-- Settles O1: the eight are rows of R64, each decoded by its lemma beside the decoder. -/
theorem writtenOutSelectorsDecode : Obligations.WrittenOutSelectorsDecode := fun d =>
  ⟨decode_word_rdStatus d, decode_word_wrLenHi d, decode_word_rdIdent d, decode_word_wrRxDiscard d,
    decode_word_rdFifoData d, decode_word_wrFifoData d, decode_word_wrIntArmed d, decode_word_rdTickLo d⟩

/-- Settles O4: in each format the low two bits decide whether the selector is rejected or selects. -/
theorem selectorsWithoutOperation : Obligations.SelectorsWithoutOperation :=
  ⟨fun o _ d => rejects_iff_and_selects_iff (ne_or_eq _ _) (decode_regfile_of_lane_ne o d) (decode_regfile_of_lane o d),
    fun o _ d => rejects_iff_and_selects_iff (eq_or_ne _ _) (decode_tickport_of_three o d)
      (decode_tickport_of_ne_three o d)⟩

/-- Settles O8: the placed transaction is the operation's own, so it decodes back to it and, with no bar in its way,
runs (O7). The operation does not touch the host, so the short wait noted is the one it leaves owed itself. -/
theorem placedWordRunsNext : Obligations.PlacedWordRunsNext := by
  intro s nbits w i hwf hword
  have horder : orderWf s.cfg.place.order = true := Placement.wf_order (Params.wf_place hwf)
  have hdecode : decode s.cfg.place.order (placedCycle s.cfg.place.order nbits w) = .ok i := by
    rw [placedCycle_of_decodeTableWord _ hword]
    exact decode_encode i _ horder
  have hruns := stepRunsTheSelectedOperation.2 (s.withFetchWord nbits w) _ _ s.agenda i rfl (.inl rfl) hdecode
    ⟨rfl, rfl⟩ rfl (.inl rfl) (fun _ _ => .inr rfl)
  refine hruns.trans (andThen_congr fun t ht => ?_)
  have howed : t.host.holdOwed = false := congrArg HostState.holdOwed (exec_host ht)
  rw [howed, Bool.false_or]
  rfl

end Sys2Proof
end

section
/-! The plain registers (O9 to O15) and the driver's binding (O54): what each kind of access answers on a present
board, how a procedure of a free context runs, and which step pays the short wait a deselect owes. -/

namespace Sys2Proof

namespace Machine

variable {s t : State} {i : Instr} {a : AppState} {e : Event} {rest : List Event}

/-! ## Accesses to a present board -/

theorem drawnRead_present (h : s.env.boardPresent = true) (f : Params → Device → Byte → Byte) :
    drawnRead s f = .next (s.drawn.answer (f s.cfg s.dev s.anyByte)) :=
  readAccess_present h _

theorem quietWrite_quiet (h : s.env.boardPresent = true) (hq : s.dev.quiet = true) (r : Refusal)
    (f : Device → Device) : quietWrite s r f = .next (s.setDev (f s.dev)) :=
  (writeAccess_present h _).trans (if_pos hq)

theorem quietWrite_active (h : s.env.boardPresent = true) (hq : s.dev.quiet = false) (r : Refusal)
    (f : Device → Device) : quietWrite s r f = .refused r :=
  (writeAccess_present h _).trans (if_neg (Bool.eq_false_iff.mp hq))

theorem exec_wrLenHi (d : Byte) (s : State) :
    exec (.wrLenHi d) s = quietWrite s .countWriteWhileActive fun dev => { dev with lenHi := d } := rfl

theorem exec_wrSpiFreq (d : Byte) (s : State) :
    exec (.wrSpiFreq d) s = quietWrite s .configWriteWhileActive fun dev => { dev with spiFreq := d } := rfl

theorem exec_wrSs (d : Byte) (s : State) :
    exec (.wrSs d) s = quietWrite s .configWriteWhileActive fun dev => { dev with ss := d } := rfl

/-! ## A procedure of a free application context (R50 to R52) -/

theorem runEvents_of_next (h : runEvent e s = .next t) : runEvents (e :: rest) s = runEvents rest t := by
  rw [runEvents, h]

@[simp] theorem runEvents_singleton (e : Event) (s : State) : runEvents [e] s = runEvent e s := by
  rw [runEvents]
  cases runEvent e s <;> rfl

/-- A call in a free application context enters its procedure (R251). -/
theorem call_ready (hr : s.ready) (p : Call) : runEvent (.call .application p) s = enter p s := by
  obtain ⟨hhandler, happ⟩ := hr
  simp only [runEvent, startCall, inHandler_eq_false.mpr hhandler, happ, reduceCtorEq, if_true, Bool.false_eq_true,
    if_false]

/-- While the handler is idle the application context's step is its procedure's (R52). -/
theorem appStep_of_idle (hh : s.host.handler = .idle) : runEvent .appStep s = procStep s :=
  if_neg (Bool.eq_false_iff.mp (inHandler_eq_false.mpr hh))

theorem probedCall_probed (hb : s.host.bound = true) (hp : s.host.probed = true) (a : AppState) :
    probedCall s a = .next (s.goto a) := by
  rw [probedCall, boardCall, earlyBar_eq_none hb (.inl hp)]

/-- A procedure that is entered at `a` and ends with its first step. -/
theorem runEvents_call_step {p : Call} {o : Out} (hr : s.ready) (he : enter p s = .next (s.goto a))
    (hstep : procStep (s.goto a) = o) : runEvents [.call .application p, .appStep] s = o := by
  have hidle : (s.goto a).host.handler = .idle := hr.1
  rw [runEvents_of_next ((call_ready hr p).trans he), runEvents_singleton, appStep_of_idle hidle, hstep]

/-- In a procedure of an attached driver a write that no bar stops performs the operation, and is noted. -/
theorem wr_attached (ha : s.Attached) (hbar : s.lineBar i = none) (k : State → Out) :
    wr i s k = andThen (exec i s) fun u => k (u.noteIssued i) := by
  rw [wr, appIssue_of_lineBar hbar, ha.base, hostAccess_attached ha.params]
  cases exec i s <;> rfl

/-! ## The bar on selecting a slave (R279) -/

/-- R279: while a short wait is owed, a write that selects a slave is barred. -/
theorem appIssue_deselectHold {v : Byte} (hb : s.host.bound = true) (hp : s.host.probed = true)
    (howed : s.host.holdOwed = true) (hv : v ≠ s.cfg.ssIdle) (run : State → Out) :
    appIssue (.wrSs v) s run = .refused .deselectHold := by
  have hbreach : s.holdBreach (.wrSs v) = true := by simp [State.holdBreach, howed, hv]
  rw [appIssue, State.lineBar, earlyBar_eq_none hb (.inl hp), hbreach]
  rfl

theorem wr_deselectHold {v : Byte} (hb : s.host.bound = true) (hp : s.host.probed = true)
    (howed : s.host.holdOwed = true) (hv : v ≠ s.cfg.ssIdle) (k : State → Out) :
    wr (.wrSs v) s k = .refused .deselectHold := by
  rw [wr, appIssue_deselectHold hb hp howed hv]
  rfl

/-- A WR.SS in a procedure of an attached driver, with a byte that no owed wait bars. -/
theorem wr_wrSs {v : Byte} (ha : s.Attached) (hb : s.host.bound = true) (hp : s.host.probed = true)
    (hpresent : s.env.boardPresent = true) (hq : s.dev.quiet = true)
    (hhold : s.host.holdOwed = false ∨ v = s.cfg.ssIdle) (k : State → Out) :
    wr (.wrSs v) s k = k ((s.setDev { s.dev with ss := v }).noteIssued (.wrSs v)) := by
  have hbreach : s.holdBreach (.wrSs v) = false :=
    holdBreach_eq_false fun d hd => Instr.wrSs.inj hd ▸ hhold.symm
  rw [wr_attached ha (lineBar_eq_none hb (.inl hp) hbreach), exec_wrSs, quietWrite_quiet hpresent hq]
  rfl

/-- R88: `select(v)` is the write of `v` to SS. -/
theorem procStep_select {v : Byte} (h : s.Operational) (hq : s.dev.quiet = true)
    (hhold : s.host.holdOwed = false ∨ v = s.cfg.ssIdle) :
    procStep (s.goto (.select v)) = .next { s with
      dev := { s.dev with ss := v }
      host := { s.host with holdOwed := s.host.holdOwed || v == s.cfg.ssIdle, app := .idle, result := .done } } := by
  obtain ⟨⟨hw, hbase, hctx⟩, hpresent, -, hb, hp⟩ := h
  exact wr_wrSs (s := s.goto (.select v)) ⟨hw, hbase, hctx⟩ hb hp hpresent hq hhold _

/-- R88: `deselect()` is the write of SS_IDLE, never barred, and goes on to the short wait that is now owed. -/
theorem procStep_deselect (h : s.Operational) (hq : s.dev.quiet = true) :
    procStep (s.goto .deselect) = .next { s with
      dev := { s.dev with ss := s.cfg.ssIdle }
      host := { s.host with holdOwed := true, app := .shortWait } } := by
  obtain ⟨⟨hw, hbase, hctx⟩, hpresent, -, hb, hp⟩ := h
  refine (wr_wrSs (s := s.goto .deselect) ⟨hw, hbase, hctx⟩ hb hp hpresent hq (.inr rfl) _).trans ?_
  rw [noteIssued_eq]
  simp [State.goto, State.setHost, State.setDev]

/-- R220: a calibrated short wait returns, and pays what is owed. -/
theorem appStep_shortWait {n : Nat} (hh : s.host.handler = .idle) (happ : s.host.app = .shortWait)
    (hn : s.host.iters = some n) :
    runEvent .appStep s = .next ((s.setHost { s.host with holdOwed := false }).finish .done) := by
  rw [appStep_of_idle hh]
  simp only [procStep, happ, shortWaitStep, hn]

/-! ## What is owed stays owed (R279)

`StillOwed` has a rule for each way a meaning is put together; the procedures then go by their structure. -/

/-- Where this outcome leads, a short wait is owed. -/
def StillOwed (o : Out) : Prop := ∀ t, o = .next t → t.host.holdOwed = true

@[simp] theorem stillOwed_next : StillOwed (.next t) ↔ t.host.holdOwed = true :=
  ⟨fun h => h t rfl, fun h _ ht => Host.Outcome.next.inj ht ▸ h⟩

@[simp] theorem stillOwed_refused (r : Refusal) : StillOwed (.refused r) := by
  intro t h
  cases h

@[simp] theorem stillOwed_ite {c : Prop} [Decidable c] {o o' : Out} :
    StillOwed (if c then o else o') ↔ (c → StillOwed o) ∧ (¬c → StillOwed o') := by
  split <;> simp_all

theorem stillOwed_andThen {o : Out} {k : State → Out} (h : ∀ u, o = .next u → StillOwed (k u)) :
    StillOwed (andThen o k) := by
  intro t ht
  obtain ⟨u, hu, hk⟩ := andThen_next ht
  exact h u hu t hk

/-- Issuing an operation can only make a wait owed. -/
theorem holdOwed_noteIssued (h : s.host.holdOwed = true) (i : Instr) : (s.noteIssued i).host.holdOwed = true := by
  rw [noteIssued_eq]; simp [h]

theorem stillOwed_rd {k : Byte → State → Out} (h : s.host.holdOwed = true)
    (hk : ∀ v u, u.host.holdOwed = true → StillOwed (k v u)) : StillOwed (rd i s k) := by
  intro t ht
  obtain ⟨-, u, hu, hrest⟩ := rd_next ht
  exact hk _ _ (holdOwed_noteIssued (hostAccess_host hu ▸ h) i) t hrest

theorem stillOwed_wr {k : State → Out} (h : s.host.holdOwed = true)
    (hk : ∀ u, u.host.holdOwed = true → StillOwed (k u)) : StillOwed (wr i s k) := by
  intro t ht
  obtain ⟨-, u, hu, hrest⟩ := wr_next ht
  exact hk _ (holdOwed_noteIssued (hostAccess_host hu ▸ h) i) t hrest

theorem stillOwed_pollAgain (h : s.host.holdOwed = true) (polls copied : Nat) (again : Nat → AppState) :
    StillOwed (pollAgain s polls copied again) := by
  intro t ht
  rcases pollAgain_next ht with rfl | rfl <;> exact h

theorem stillOwed_waitStep {k : State → Out} (h : s.host.holdOwed = true)
    (hk : ∀ u, u.host.holdOwed = true → StillOwed (k u)) : StillOwed (waitStep s k) :=
  stillOwed_ite.mpr ⟨fun _ => hk _ h, fun _ => stillOwed_refused _⟩

theorem stillOwed_ticksStep {pc : TickPc} {next : TickPc → AppState} {k : Tick → State → Out}
    (h : s.host.holdOwed = true) (hk : ∀ v u, u.host.holdOwed = true → StillOwed (k v u)) :
    StillOwed (ticksStep pc s next k) := by
  unfold ticksStep
  cases pc with
  | hi => exact stillOwed_rd h fun _ _ hu => stillOwed_next.mpr hu
  | mid x => exact stillOwed_rd h fun _ _ hu => stillOwed_next.mpr hu
  | lo x y => exact stillOwed_rd h fun _ _ hu => hk _ _ hu

theorem holdOwed_probeDone (h : s.host.holdOwed = true) (v : ProbeVerdict) :
    (s.probeDone v).host.holdOwed = true := by
  cases v <;> exact h

theorem probeStep_stillOwed (h : s.host.holdOwed = true) (w : List Byte) : StillOwed (probeStep w s) :=
  stillOwed_rd h fun _ _ hu => by simp [hu, holdOwed_probeDone]

theorem spiReadStep_stillOwed (h : s.host.holdOwed = true) (pc : ReadPc) (v : ReadVars) :
    StillOwed (spiReadStep pc v s) := by
  unfold spiReadStep
  cases pc with
  | lenHi => exact stillOwed_wr h fun _ hu => by simp [hu]
  | feed => exact stillOwed_wr h fun _ hu => by simp [hu]
  | head => exact stillOwed_rd h fun _ _ hu => by simp [hu]
  | poll => exact stillOwed_rd h fun _ _ hu => by simp [hu, stillOwed_pollAgain]
  | copy => exact stillOwed_rd h fun _ _ hu => by simp [hu]

theorem spiRead1Step_stillOwed (h : s.host.holdOwed = true) (pc : Read1Pc) : StillOwed (spiRead1Step pc s) := by
  unfold spiRead1Step
  cases pc with
  | lenHi => exact stillOwed_wr h fun _ hu => by simp [hu]
  | feed => exact stillOwed_wr h fun _ hu => by simp [hu]
  | head => exact stillOwed_rd h fun _ _ hu => by simp [hu]
  | spin hd polls => exact stillOwed_rd h fun _ _ hu => by simp [hu, stillOwed_pollAgain]
  | data => exact stillOwed_rd h fun _ _ hu => by simp [hu]

theorem spiWriteStep_stillOwed (h : s.host.holdOwed = true) (pc : WritePc) (v : WriteVars) :
    StillOwed (spiWriteStep pc v s) := by
  unfold spiWriteStep
  cases pc with
  | lenHi => exact stillOwed_wr h fun _ hu => by simp [hu]
  | discard => exact stillOwed_wr h fun _ hu => by simp [hu]
  | tail => exact stillOwed_rd h fun _ _ hu => by simp [hu]
  | poll => exact stillOwed_rd h fun _ _ hu => by simp [hu, stillOwed_pollAgain]
  | push => exact stillOwed_wr h fun _ hu => by simp [hu]
  | status => exact stillOwed_rd h fun _ _ hu => by simp [hu, stillOwed_pollAgain]

theorem spiWrite1Step_stillOwed (h : s.host.holdOwed = true) (pc : Write1Pc) (b : Byte) :
    StillOwed (spiWrite1Step pc b s) := by
  unfold spiWrite1Step
  cases pc with
  | lenHi => exact stillOwed_wr h fun _ hu => by simp [hu]
  | discard => exact stillOwed_wr h fun _ hu => by simp [hu]
  | tail => exact stillOwed_rd h fun _ _ hu => by simp [hu]
  | spin tl polls => exact stillOwed_rd h fun _ _ hu => by simp [hu, stillOwed_pollAgain]
  | data => exact stillOwed_wr h fun _ hu => by simp [hu]
  | status polls => exact stillOwed_rd h fun _ _ hu => by simp [hu, stillOwed_pollAgain]

theorem resetInterruptStep_stillOwed (h : s.host.holdOwed = true) (m : Option Byte) :
    StillOwed (resetInterruptStep m s) := by
  cases m with
  | none => exact stillOwed_next.mpr h
  | some m => exact stillOwed_wr h fun _ hu => stillOwed_next.mpr hu

theorem delayStep_stillOwed (h : s.host.holdOwed = true) (n : Nat) (dl : Option Tick) (pc : TickPc) :
    StillOwed (delayStep n dl pc s) := by
  cases dl with
  | none => exact stillOwed_ticksStep h fun _ _ hu => by simp [hu]
  | some dl => exact stillOwed_ticksStep h fun _ _ hu => by simp [hu]

theorem calibrateStep_stillOwed (h : s.host.holdOwed = true) (pc : CalPc) : StillOwed (calibrateStep pc s) := by
  have hsample : s.wallClock.2.host.holdOwed = true := by rw [wallClock_host]; exact h
  cases pc with
  | disablePreemption => exact stillOwed_next.mpr h
  | sampleBefore => exact stillOwed_next.mpr hsample
  | loop t0 => exact stillOwed_next.mpr h
  | sampleAfter t0 => exact stillOwed_next.mpr hsample
  | enablePreemption t0 t1 => exact stillOwed_next.mpr h
  | decide m =>
    simp only [calibrateStep]
    split
    · split <;> exact stillOwed_next.mpr h
    · exact stillOwed_refused _

theorem waitDeadlineStep_stillOwed (h : s.host.holdOwed = true) (n : Nat) (sigs : List Nat) :
    StillOwed (waitDeadlineStep n sigs s) := by
  simp [waitDeadlineStep, h]

theorem openTimerStep_stillOwed (h : s.host.holdOwed = true) : StillOwed (openTimerStep s) := by
  simp [openTimerStep, h]

/-- Of all the procedures only `shortWait` can end what is owed. -/
theorem procStep_stillOwed (h : s.host.holdOwed = true) (hne : s.host.app ≠ .shortWait) :
    StillOwed (procStep s) := by
  unfold procStep
  generalize s.host.app = a at hne
  cases a with
  | idle => exact stillOwed_refused _
  | shortWait => exact absurd rfl hne
  | init b n g => exact stillOwed_next.mpr h
  | destroy => exact stillOwed_next.mpr h
  | register => exact stillOwed_next.mpr h
  | deregister => exact stillOwed_next.mpr h
  | closeTimer n => exact stillOwed_next.mpr h
  | probe w => exact probeStep_stillOwed h w
  | arm => exact stillOwed_wr h fun _ hu => stillOwed_next.mpr hu
  | disarm => exact stillOwed_wr h fun _ hu => stillOwed_next.mpr hu
  | select v => exact stillOwed_wr h fun _ hu => stillOwed_next.mpr hu
  | deselect => exact stillOwed_wr h fun _ hu => stillOwed_next.mpr hu
  | pinState => exact stillOwed_rd h fun _ _ hu => stillOwed_next.mpr hu
  | resetInterrupt m => exact resetInterruptStep_stillOwed h m
  | waitSignal => exact stillOwed_waitStep h fun _ hu => stillOwed_next.mpr hu
  | consume => exact stillOwed_waitStep h fun _ hu => stillOwed_next.mpr hu
  | spiRead pc v => exact spiReadStep_stillOwed h pc v
  | spiRead1 pc => exact spiRead1Step_stillOwed h pc
  | spiWrite pc v => exact spiWriteStep_stillOwed h pc v
  | spiWrite1 pc b => exact spiWrite1Step_stillOwed h pc b
  | readTicks pc => exact stillOwed_ticksStep h fun _ _ hu => stillOwed_next.mpr hu
  | delay n dl pc => exact delayStep_stillOwed h n dl pc
  | calibrate pc => exact calibrateStep_stillOwed h pc
  | openTimer => exact openTimerStep_stillOwed h
  | waitDeadline n sigs => exact waitDeadlineStep_stillOwed h n sigs

theorem boardCall_stillOwed (h : s.host.holdOwed = true) (probing : Bool) (a : AppState) :
    StillOwed (boardCall s probing a) := by
  intro t ht
  obtain ⟨-, rfl⟩ := boardCall_next ht
  exact h

/-- Starting a procedure pays nothing, not even `shortWait`. -/
theorem enter_stillOwed (h : s.host.holdOwed = true) (p : Call) : StillOwed (enter p s) := by
  have hprobed (a : AppState) : StillOwed (probedCall s a) := boardCall_stillOwed h false a
  cases p with
  | init b n g | destroy | deregister | waitSignal | openTimer | closeTimer n => exact stillOwed_next.mpr h
  | calibrate => simp [enter, callCalibrate, h]
  | shortWait => simp [enter, h]
  | waitDeadline n us sigs => simp [enter, h]
  | spiWrite buf => simp [enter, hprobed]
  | delay n => simp [enter, hprobed]
  | _ => exact boardCall_stillOwed h _ _

theorem startCall_stillOwed (h : s.host.holdOwed = true) (ctx : Context) (p : Call) :
    StillOwed (startCall ctx p s) := by
  simp [startCall, enter_stillOwed h]

theorem hostLine_stillOwed (h : s.host.holdOwed = true) (c : Except DecodeError BusCycle) (w : Bool) :
    StillOwed (hostLine c w s) := by
  intro t ht
  obtain ⟨-, -, ⟨i, -, u, hu, rfl⟩ | ⟨err, w', hr⟩⟩ := hostLine_next ht
  · exact holdOwed_noteIssued (exec_host hu ▸ h) i
  · exact rejected_host hr ▸ h

theorem handlerStep_stillOwed (h : s.host.holdOwed = true) : StillOwed (handlerStep s) := by
  unfold handlerStep
  cases s.host.handler with
  | idle => exact stillOwed_refused _
  | readFired => exact stillOwed_andThen fun u hu => stillOwed_next.mpr (hostAccess_host hu ▸ h)
  | clearFired => exact stillOwed_andThen fun u hu => stillOwed_next.mpr (hostAccess_host hu ▸ h)
  | raiseSignal => exact stillOwed_next.mpr h

theorem deadlinePasses_stillOwed (h : s.host.holdOwed = true) : StillOwed (deadlinePasses s) := by
  intro t ht
  obtain ⟨x, rfl⟩ := deadlinePasses_next ht
  exact h

/-- Between `h` and `k` a short wait of the application context returned (R220). -/
structure HostState.PaysWait (h k : HostState) : Prop where
  waiting : h.app = .shortWait
  handler : h.handler = .idle
  returned : k.app = .idle
  result : k.result = .done

theorem shortWaitStep_next (h : shortWaitStep s = .next t) :
    t = (s.setHost { s.host with holdOwed := false }).finish .done := by
  unfold shortWaitStep at h
  split at h
  · exact (Host.Outcome.next.inj h).symm
  · cases h

/-- R279: an application step leaves the wait owed, or is the short wait that pays it. -/
theorem appStep_owed (h : s.host.holdOwed = true) (hs : appStep s = .next t) :
    t.host.holdOwed = true ∨ s.host.PaysWait t.host := by
  obtain ⟨hidle, hproc⟩ := appStep_next hs
  by_cases happ : s.host.app = .shortWait
  · rw [procStep, happ] at hproc
    obtain rfl := shortWaitStep_next hproc
    exact .inr ⟨happ, hidle, rfl, rfl⟩
  · exact .inl (procStep_stillOwed h happ t hproc)

theorem runEvent_owed (h : s.host.holdOwed = true) (hs : runEvent e s = .next t) :
    t.host.holdOwed = true ∨ s.host.PaysWait t.host := by
  cases e with
  | appStep => exact appStep_owed h hs
  | bus c => exact .inl (hostLine_stillOwed h (.ok c) _ t hs)
  | access a => exact .inl (hostLine_stillOwed h (decodeAccess s.placement a) _ t hs)
  | call ctx p => exact .inl (startCall_stillOwed h ctx p t hs)
  | handlerStep => exact .inl (handlerStep_stillOwed h t hs)
  | deadline => exact .inl (deadlinePasses_stillOwed h t hs)
  | engLaunch => obtain ⟨-, rfl⟩ := engLaunch_next hs; exact .inl h
  | engComplete r => obtain ⟨-, rfl⟩ := engComplete_next hs; exact .inl h
  | pinChange p => cases hs; exact .inl h
  | tickInc => cases hs; exact .inl h
  | irqDispatch => obtain ⟨-, rfl⟩ := irqDispatch_next hs; exact .inl h
  | irqSpurious => obtain ⟨-, rfl⟩ := irqSpurious_next hs; exact .inl h
  | signal n => cases hs; exact .inl h

/-- R279: what is owed stays owed in every step but the one in which a short wait returns. -/
theorem step_owed (h : s.host.holdOwed = true) (hs : step s = .next t) :
    t.host.holdOwed = true ∨ s.host.PaysWait t.host := by
  rcases step_cases hs with ⟨e, rest, -, he⟩ | ⟨-, rfl | he⟩
  · exact runEvent_owed (s := { s with agenda := rest }) h he
  · exact .inl h
  · exact runEvent_owed (s := s.drawn) h he

/-! ## The barred writes, and the short wait of `deselect` -/

/-- R279: `select(v)` is entered, and its write is refused. -/
theorem runEvents_select_barred {v : Byte} (h : s.Operational) (howed : s.host.holdOwed = true)
    (hv : v ≠ s.cfg.ssIdle) :
    runEvents [.call .application (.select v), .appStep] s = .refused .deselectHold := by
  have hwrite : procStep (s.goto (.select v)) = .refused .deselectHold :=
    wr_deselectHold (s := s.goto (.select v)) h.bound h.probed howed hv _
  exact runEvents_call_step h.ready (probedCall_probed h.bound h.probed _) hwrite

/-- R279: a raw line that selects a slave is refused, whether it comes by selector or by address. -/
theorem step_line_barred {v : Byte} {c : BusCycle} (h : s.Operational) (howed : s.host.holdOwed = true)
    (hv : v ≠ s.cfg.ssIdle) (hevent : e = .bus c ∨ ∃ a, e = .access a ∧ decodeAccess s.cfg.place a = .ok c)
    (hdecode : decode s.cfg.place.order c = .ok (.wrSs v)) (hagenda : s.agenda = e :: rest) :
    step s = .refused .deselectHold := by
  have hline : ∀ w, hostLine (.ok c) w { s with agenda := rest } = .refused .deselectHold := fun w =>
    (hostLine_decoded (s := { s with agenda := rest }) h.ready hdecode).trans
      (appIssue_deselectHold (s := { s with agenda := rest }) h.bound h.probed howed hv _)
  rw [step_of_agenda hagenda]
  rcases hevent with rfl | ⟨a, rfl, haccess⟩
  · exact hline c.sel.isWrite
  · exact (congrArg (hostLine · a.write _) haccess).trans (hline a.write)

/-- R88, R220: `deselect()` leaves SS at SS_IDLE and, once its short wait has run, nothing owed. -/
theorem runEvents_deselect {n : Nat} (h : s.Operational) (hq : s.dev.quiet = true)
    (hn : s.host.iters = some n) :
    runEvents [.call .application .deselect, .appStep, .appStep] s = .next { s with
      dev := { s.dev with ss := s.cfg.ssIdle }
      host := { s.host with holdOwed := false, app := .idle, result := .done } } := by
  have hidle : s.host.handler = .idle := h.ready.1
  have hcall : runEvent (.call .application .deselect) s = .next (s.goto .deselect) :=
    (call_ready h.ready _).trans (probedCall_probed h.bound h.probed _)
  rw [runEvents_of_next hcall,
    runEvents_of_next ((appStep_of_idle (s := s.goto .deselect) hidle).trans (procStep_deselect h hq))]
  rw [runEvents_singleton]
  exact appStep_shortWait hidle rfl hn

/-! ## Binding (R90) -/

/-- R90, U61: the selectors 2, 3 and 6 name a line; any other keeps the default. -/
theorem lineOf_eq (dflt : IrqLine) (sel : Option Nat) :
    lineOf dflt sel =
      if sel = some 2 then .two else if sel = some 3 then .three else if sel = some 6 then .six else dflt := by
  unfold lineOf
  split
  · rfl
  · rfl
  · rfl
  · next h2 h3 h6 => rw [if_neg h2, if_neg h3, if_neg h6]

end Machine

open Machine

/-- Settles O12: WR.SS is a write guarded by a quiet engine, `select` and `deselect` are that write behind R279's
bar, and the last clause is `step_owed`. -/
theorem slaveSelectWrites : Obligations.SlaveSelectWrites := by
  refine ⟨decode_word_wrSs, fun s d hpresent => ⟨fun hq => (exec_wrSs d s).trans (quietWrite_quiet hpresent hq _ _),
      fun hq => (exec_wrSs d s).trans (quietWrite_active hpresent hq _ _)⟩,
    fun s v h hq hhold => ?_, fun s n h hq hn => runEvents_deselect h hq hn,
    fun s v rest h howed hv => ⟨runEvents_select_barred h howed hv, fun e c hevent hdecode hagenda =>
      step_line_barred h howed hv hevent hdecode hagenda⟩,
    fun s t hs howed hpaid => ?_⟩
  · exact runEvents_call_step h.ready (probedCall_probed h.bound h.probed _) (procStep_select h hq hhold)
  · obtain ⟨happ, hhandler, hreturned, hresult⟩ :=
      (step_owed howed hs).resolve_left (Bool.eq_false_iff.mp hpaid)
    exact ⟨happ, hhandler, hreturned, hresult⟩

/-- Settles O9: the read's byte is `statusByte` of a draw. -/
theorem statusReadShowsDiscardEmpty : Obligations.StatusReadShowsDiscardEmpty :=
  ⟨decode_word_rdStatus, fun _ hpresent => drawnRead_present hpresent statusByte⟩

/-- Settles O10: the read's byte is `gpioByte` of a draw. -/
theorem gpioReadShowsPinLevels : Obligations.GpioReadShowsPinLevels :=
  ⟨decode_word_rdGpio, fun _ hpresent => drawnRead_present hpresent gpioByte⟩

/-- Settles O11: both are writes guarded by a quiet engine, each with its own refusal. -/
theorem quietWritesOfLenHiAndSpiFreqStore : Obligations.QuietWritesOfLenHiAndSpiFreqStore :=
  ⟨decode_word_wrLenHi, decode_word_wrSpiFreq, fun s d hpresent =>
    ⟨fun hq => ⟨(exec_wrLenHi d s).trans (quietWrite_quiet hpresent hq _ _),
        (exec_wrSpiFreq d s).trans (quietWrite_quiet hpresent hq _ _)⟩,
      fun hq => ⟨(exec_wrLenHi d s).trans (quietWrite_active hpresent hq _ _),
        (exec_wrSpiFreq d s).trans (quietWrite_active hpresent hq _ _)⟩⟩⟩

/-- Settles O13: each is a refused read that names its register. -/
theorem readsOfWriteOnlyRegistersRefused : Obligations.ReadsOfWriteOnlyRegistersRefused :=
  ⟨fun d => ⟨decode_word_rdLenHi d, decode_word_rdRxDiscard d, decode_word_rdTxFeed d, decode_word_rdSpiFreq d,
      decode_word_rdSs d, decode_word_rdIntArmed d⟩,
    fun _ hpresent => ⟨refusedRead_present hpresent _, refusedRead_present hpresent _,
      refusedRead_present hpresent _, refusedRead_present hpresent _, refusedRead_present hpresent _,
      refusedRead_present hpresent _⟩⟩

/-- Settles O14: each is a refused write that names its register and does not look at the data. -/
theorem writesOfReadOnlyRegistersRefused : Obligations.WritesOfReadOnlyRegistersRefused :=
  ⟨fun d => ⟨decode_word_wrStatus d, decode_word_wrGpio d, decode_word_wrRxHead d, decode_word_wrRxTail d,
      decode_word_wrTxHead d, decode_word_wrTxTail d, decode_word_wrIdent d⟩,
    fun _ _ hpresent => ⟨refusedWrite_present hpresent _, refusedWrite_present hpresent _,
      refusedWrite_present hpresent _, refusedWrite_present hpresent _, refusedWrite_present hpresent _,
      refusedWrite_present hpresent _, refusedWrite_present hpresent _⟩⟩

/-- Settles O15: RESERVED is refused in both directions. -/
theorem reservedRegisterRefused : Obligations.ReservedRegisterRefused :=
  ⟨decode_word_rdReserved, decode_word_wrReserved, fun _ _ hpresent =>
    ⟨refusedRead_present hpresent _, refusedWrite_present hpresent _⟩⟩

/-- Settles O54: each of the four is entered and ends with its first step, which writes the host alone; only
`register` is entered behind the probe. -/
theorem bindingAndRegistration : Obligations.BindingAndRegistration := by
  refine ⟨fun s base sel sig hr => ?_, fun s hr => runEvents_call_step hr rfl rfl,
    fun s hr hb hp => runEvents_call_step hr (probedCall_probed hb hp _) rfl,
    fun s hr => runEvents_call_step hr rfl rfl⟩
  rw [← lineOf_eq]
  exact runEvents_call_step hr rfl rfl

end Sys2Proof
end

section
/-! Identification (O17 to O20): the ROM byte RD.IDENT reads and what the search finds in a window of it, and the probe
as eight such reads. The guards of calls and of raw transactions (O55): the bars of R108 and R271. -/

namespace Sys2Proof

namespace Machine

variable {s : State} {e : Event} {rest : List Event} {c : BusCycle} {i : Instr} {w : List Byte} {r r' k : Nat}

/-! ## RD.IDENT (R101) -/

/-- IDROM as the list R100 writes. -/
theorem idrom_eq_getD (cfg : Params) (p : BitVec 3) :
    idrom cfg p =
      [0xFF#8, 0x73#8, 0x70#8, 0x64#8, 0x72#8, cfg.fwMajor, cfg.fwMinor, cfg.fwPatch].getD p.toNat 0 := by
  have hlt : p.toNat < 8 := p.isLt
  unfold idrom
  generalize p.toNat = n at hlt
  interval_cases n <;> rfl

/-- RD.IDENT has answered: the byte at IDPTR read, IDPTR advanced. -/
def State.identRead (s : State) : State :=
  (s.setDev { s.dev with idptr := s.dev.idptr + 1 }).answer (idrom s.cfg s.dev.idptr)

theorem exec_rdIdent (s : State) : exec .rdIdent s = readAccess s fun s => .next s.identRead := rfl

theorem exec_rdIdent_present (h : s.env.boardPresent = true) : exec .rdIdent s = .next s.identRead :=
  (exec_rdIdent s).trans (readAccess_present h _)

/-- After `n + 1` reads IDPTR has advanced as often, and the byte of the last one is `n` places on. -/
theorem identRead_iterate (s : State) (n : Nat) :
    State.identRead^[n + 1] s = { s with
      dev := { s.dev with idptr := s.dev.idptr + BitVec.ofNat 3 (n + 1) }
      readData := idrom s.cfg (s.dev.idptr + BitVec.ofNat 3 n) } := by
  induction n with
  | zero => simp [State.identRead, State.setDev, State.answer]
  | succ n ih =>
    rw [Function.iterate_succ_apply', ih]
    simp [State.identRead, State.setDev, State.answer, BitVec.ofNat_add, add_assoc]

/-- Eight reads bring IDPTR round to where it was; the last is of the byte before it. -/
theorem identRead_eight (s : State) :
    State.identRead^[8] s = { s with readData := idrom s.cfg (s.dev.idptr - 1) } := by
  have hround : s.dev.idptr + BitVec.ofNat 3 8 = s.dev.idptr := BitVec.add_zero _
  have hlast : s.dev.idptr + BitVec.ofNat 3 7 = s.dev.idptr - 1 := (BitVec.sub_eq_add_neg _ 1#3).symm
  rw [identRead_iterate, hround, hlast]

/-! ## The marker (R104, R105) -/

/-- A byte of the window is the same from whichever rotation it is counted. -/
theorem windowAt_congr {k' : Nat} (h : (r + k) % 8 = (r' + k') % 8) : windowAt w r k = windowAt w r' k' := by
  rw [windowAt, windowAt, h]

theorem markerAt_iff :
    markerAt w r = true ↔ windowAt w r 0 = 0xFF ∧ windowAt w r 1 = 0x73 ∧ windowAt w r 2 = 0x70 ∧
      windowAt w r 3 = 0x64 ∧ windowAt w r 4 = 0x72 := by
  simp only [markerAt, Bool.and_eq_true, beq_iff_eq, and_assoc]

/-- The marker's first byte is none of its other four. -/
theorem windowAt_ne_of_markerAt (h : markerAt w r = true) (hpos : 1 ≤ k) (hlt : k < 5) :
    windowAt w r k ≠ 0xFF := by
  obtain ⟨-, h1, h2, h3, h4⟩ := markerAt_iff.mp h
  interval_cases k
  · rw [h1]; decide
  · rw [h2]; decide
  · rw [h3]; decide
  · rw [h4]; decide

/-- So no second marker begins inside a marker. -/
theorem markerAt_eq_false_of_inside (h : markerAt w r = true) (hpos : 1 ≤ k) (hlt : k < 5)
    (hk : (r + k) % 8 = r' % 8) : markerAt w r' = false := by
  refine Bool.eq_false_iff.mpr fun h' => windowAt_ne_of_markerAt h hpos hlt ?_
  calc windowAt w r k
    _ = windowAt w r' 0 := windowAt_congr hk
    _ = 0xFF := (markerAt_iff.mp h').1

/-- Of two rotations of eight bytes one lies within the five bytes that begin at the other. -/
theorem markerAt_not_before (h : markerAt w r = true) (h' : markerAt w r' = true) (h8 : r' < 8) : ¬r < r' := by
  intro hlt
  rcases Nat.lt_or_ge (r' - r) 5 with hnear | hfar
  · have hfalse := markerAt_eq_false_of_inside h (k := r' - r) (r' := r') (by omega) hnear (by omega)
    exact Bool.false_ne_true (hfalse.symm.trans h')
  · have hfalse := markerAt_eq_false_of_inside h' (k := r + 8 - r') (r' := r) (by omega) (by omega) (by omega)
    exact Bool.false_ne_true (hfalse.symm.trans h)

theorem markerAt_unique (hr : r < 8) (hr' : r' < 8) (h : markerAt w r = true) (h' : markerAt w r' = true) :
    r = r' :=
  le_antisymm (not_lt.mp (markerAt_not_before h' h hr)) (not_lt.mp (markerAt_not_before h h' hr'))

/-! ## The search (R104 to R106) -/

/-- What the search reports of a version found (R104). -/
def ProbeVerdict.ofVersion (v : Version) : ProbeVerdict := if v.major = 1 then .found v else .unsupported v

/-- The search reports the version of the one rotation where the marker stands. -/
theorem searchWindow_of_markerAt (hr : r < 8) (h : markerAt w r = true) :
    searchWindow w = .ofVersion (versionAt w r) := by
  unfold searchWindow
  split
  · next found hfound =>
    have hlt : found < 8 := List.mem_range.mp (List.mem_of_find?_eq_some hfound)
    obtain rfl : found = r := markerAt_unique hlt hr (List.find?_some hfound) h
    rfl
  · next hnone => exact absurd h (List.find?_eq_none.mp hnone r (List.mem_range.mpr hr))

/-- The bytes that `n` reads of IDENT return, from the ROM position `p` on. -/
def romWindow (cfg : Params) (p : BitVec 3) (n : Nat) : List Byte :=
  (List.range n).map fun k => idrom cfg (p + BitVec.ofNat 3 k)

theorem romWindow_succ (cfg : Params) (p : BitVec 3) (n : Nat) :
    romWindow cfg p (n + 1) = idrom cfg p :: romWindow cfg (p + 1) n := by
  have hshift : ∀ k, p + BitVec.ofNat 3 (k + 1) = p + 1 + BitVec.ofNat 3 k := fun k => by
    rw [BitVec.ofNat_add, add_comm (BitVec.ofNat 3 k), add_assoc]
    rfl
  simp only [romWindow, List.range_succ_eq_map, List.map_cons, List.map_map, Function.comp_def, Nat.succ_eq_add_one,
    hshift, BitVec.add_zero]

/-- From its rotation `-p` on, a window that starts at `p` shows the ROM in order. -/
theorem windowAt_romWindow (cfg : Params) (p : BitVec 3) (k : Nat) :
    windowAt (romWindow cfg p 8) (-p).toNat k = idrom cfg (BitVec.ofNat 3 k) := by
  have hplace : p + BitVec.ofNat 3 (((-p).toNat + k) % 8) = BitVec.ofNat 3 k := by
    bv_omega
  have hlt : ((-p).toNat + k) % 8 < (romWindow cfg p 8).length := by
    simp only [romWindow, List.length_map, List.length_range]; omega
  rw [windowAt, List.getD_eq_getElem _ _ hlt]
  simp only [romWindow, List.getElem_map, List.getElem_range, hplace]

theorem markerAt_romWindow (cfg : Params) (p : BitVec 3) : markerAt (romWindow cfg p 8) (-p).toNat = true := by
  rw [markerAt_iff]
  simp only [windowAt_romWindow]
  exact ⟨rfl, rfl, rfl, rfl, rfl⟩

theorem versionAt_romWindow (cfg : Params) (p : BitVec 3) :
    versionAt (romWindow cfg p 8) (-p).toNat = ⟨cfg.fwMajor, cfg.fwMinor, cfg.fwPatch⟩ := by
  simp only [versionAt, windowAt_romWindow]
  rfl

/-- R106: from whichever position it was read, the window gives the firmware's version. -/
theorem searchWindow_romWindow (cfg : Params) (p : BitVec 3) :
    searchWindow (romWindow cfg p 8) = .ofVersion ⟨cfg.fwMajor, cfg.fwMinor, cfg.fwPatch⟩ := by
  rw [searchWindow_of_markerAt (-p).isLt (markerAt_romWindow cfg p), versionAt_romWindow]

/-! ## The probe (R104) -/

/-- In a procedure of an attached driver a read that no bar stops performs the operation, is noted, and goes on with
the byte. -/
theorem rd_attached (ha : s.Attached) (hbar : s.lineBar i = none) (k : Byte → State → Out) :
    rd i s k = andThen (exec i s) fun u => k u.readData (u.noteIssued i) := by
  rw [rd, appIssue_of_lineBar hbar, ha.base, hostAccess_attached ha.params]
  cases exec i s with
  | next u => exact congrArg (k · _) (State.noteIssued_readData u i)
  | fault f => rfl
  | refused x => rfl

/-- The state in which `probe` is called: as `State.Operational`, but the probe itself is still to come. -/
structure State.Probeable (s : State) : Prop where
  attached : s.Attached
  present : s.env.boardPresent = true
  ready : s.ready
  bound : s.host.bound = true

theorem State.Probeable.identRead (h : s.Probeable) : s.identRead.Probeable where
  attached := ⟨h.attached.params, h.attached.base, h.attached.context⟩
  present := h.present
  ready := h.ready
  bound := h.bound

theorem procStep_probe (s : State) (w : List Byte) :
    procStep (s.goto (.probe w)) = probeStep w (s.goto (.probe w)) := rfl

/-- What the probe reports does not depend on where the application context stood. -/
theorem probeDone_goto (s : State) (a : AppState) (v : ProbeVerdict) : (s.goto a).probeDone v = s.probeDone v := by
  cases v <;> rfl

/-- One read of the probe: another follows until there are eight bytes, which are then searched. -/
theorem appStep_probe (h : s.Probeable) (w : List Byte) :
    runEvent .appStep (s.goto (.probe w)) =
      if (w ++ [idrom s.cfg s.dev.idptr]).length < 8
      then .next (s.identRead.goto (.probe (w ++ [idrom s.cfg s.dev.idptr])))
      else .next (s.identRead.probeDone (searchWindow (w ++ [idrom s.cfg s.dev.idptr]))) := by
  obtain ⟨⟨hw, hbase, hctx⟩, hpresent, ⟨hidle, -⟩, hb⟩ := h
  have hbar : (s.goto (.probe w)).lineBar .rdIdent = none := lineBar_eq_none hb (.inr rfl) rfl
  rw [appStep_of_idle (s := s.goto (.probe w)) hidle, procStep_probe, probeStep,
    rd_attached (s := s.goto (.probe w)) ⟨hw, hbase, hctx⟩ hbar,
    exec_rdIdent_present (s := s.goto (.probe w)) hpresent, ← probeDone_goto s.identRead (.probe w)]
  rfl

/-- The reads still to come of the probe, by induction on their number, and the search of all eight bytes. -/
theorem runEvents_probe (n : Nat) : ∀ {s : State} {w : List Byte}, s.Probeable → w.length + (n + 1) = 8 →
    runEvents (List.replicate (n + 1) .appStep) (s.goto (.probe w)) =
      .next ((State.identRead^[n + 1] s).probeDone
        (searchWindow (w ++ romWindow s.cfg s.dev.idptr (n + 1)))) := by
  induction n with
  | zero =>
    intro s w h hlen
    have hlast : ¬(w ++ [idrom s.cfg s.dev.idptr]).length < 8 := by simp; omega
    rw [List.replicate_one, runEvents_singleton, appStep_probe h, if_neg hlast, romWindow_succ]
    rfl
  | succ n ih =>
    intro s w h hlen
    have hmore : (w ++ [idrom s.cfg s.dev.idptr]).length < 8 := by simp; omega
    rw [List.replicate_succ, runEvents_of_next ((appStep_probe h w).trans (if_pos hmore)),
      ih h.identRead (by simp; omega), List.append_assoc, romWindow_succ s.cfg]
    rfl

/-! ## The bars before binding and before the probe (R108, R271, R272) -/

theorem earlyBar_unbound (h : s.host.bound = false) (ident : Bool) : s.earlyBar ident = some .notBound :=
  if_neg (Bool.eq_false_iff.mp h)

theorem earlyBar_unprobed (hb : s.host.bound = true) (hp : s.host.probed = false) :
    s.earlyBar false = some .notProbed := by
  simp only [State.earlyBar, hb, hp, if_true, Bool.or_false, Bool.false_eq_true, if_false]

theorem boardCall_barred {probing : Bool} {x : Refusal} (h : s.earlyBar probing = some x) (a : AppState) :
    boardCall s probing a = .refused x := by
  rw [boardCall, h]

/-- Every call that uses the board is entered behind the probe. -/
theorem enter_of_usesBoard {p : Call} (h : usesBoard p = true) (s : State) : ∃ a, enter p s = probedCall s a := by
  cases p with
  | spiWrite buf => exact ⟨_, if_pos (of_decide_eq_true h)⟩
  | delay ticks => exact ⟨_, if_pos (of_decide_eq_true h)⟩
  | register | arm | disarm | resetInterrupt | consume | pinState | spiRead | spiRead1 | spiWrite1
  | readTicks | select | deselect => exact ⟨_, rfl⟩
  | init | destroy | probe | deregister | waitSignal | calibrate | shortWait | openTimer | closeTimer
  | waitDeadline => cases h

theorem enter_barred {p : Call} {x : Refusal} (hp : usesBoard p = true) (h : s.earlyBar false = some x) :
    enter p s = .refused x := by
  obtain ⟨a, ha⟩ := enter_of_usesBoard hp s
  exact ha.trans (boardCall_barred h a)

theorem call_reentered (hidle : s.host.handler = .idle) (happ : s.host.app ≠ .idle) (p : Call) :
    runEvent (.call .application p) s = .refused .reentered := by
  simp only [runEvent, startCall, inHandler_eq_false.mpr hidle, reduceCtorEq, Bool.false_eq_true, if_false, happ]

theorem appIssue_barred {x : Refusal} (h : s.earlyBar (i == .rdIdent) = some x) (run : State → Out) :
    appIssue i s run = .refused x := by
  rw [appIssue, State.lineBar, h]

theorem lineError_barred {x : Refusal} (h : s.earlyBar false = some x) (write : Bool) :
    lineError .unmappedOffset write s = .refused x := by
  rw [lineError, h]

/-- What stops everything but RD.IDENT stops a line with another operation, or in the window with none. -/
theorem hostLine_barred {x : Refusal} {write : Bool} (hr : s.ready)
    (hc : (∃ i, decode s.cfg.place.order c = .ok i ∧ i ≠ .rdIdent) ∨
      decode s.cfg.place.order c = .error .unmappedOffset)
    (h : s.earlyBar false = some x) : hostLine (.ok c) write s = .refused x := by
  rcases hc with ⟨i, hdecode, hi⟩ | hdecode
  · rw [hostLine_decoded hr hdecode]
    exact appIssue_barred (by rw [beq_eq_false_iff_ne.mpr hi, h]) _
  · rw [hostLine_undecoded hr hdecode, lineError_barred h]

/-- A transaction at the head of the agenda, by selector or by address, is a line of the application context. -/
theorem step_line (hagenda : s.agenda = e :: rest)
    (hevent : e = .bus c ∨ ∃ a, e = .access a ∧ decodeAccess s.cfg.place a = .ok c) :
    ∃ write, step s = hostLine (.ok c) write { s with agenda := rest } := by
  rw [step_of_agenda hagenda]
  rcases hevent with rfl | ⟨a, rfl, haccess⟩
  · exact ⟨c.sel.isWrite, rfl⟩
  · exact ⟨a.write, congrArg (hostLine · a.write { s with agenda := rest }) haccess⟩

end Machine

open Machine

/-- Settles O18: a second marker would begin inside the first, or the first inside it. -/
theorem markerStandsAtOneRotation : Obligations.MarkerStandsAtOneRotation :=
  fun _ _ _ _ hr hr' h h' => markerAt_unique hr hr' h h'

/-- Settles O19: the marker stands at the rotation that undoes the starting pointer, and nowhere else (O18). -/
theorem searchFindsEveryRotation : Obligations.SearchFindsEveryRotation := searchWindow_romWindow

/-- Settles O20: the eight reads collect the window that starts at IDPTR (O19) and bring IDPTR round. -/
theorem probeReportsTheFirmwareVersion : Obligations.ProbeReportsTheFirmwareVersion := by
  intro s ha hpresent hr hb v last
  have hcall : runEvent (.call .application .probe) s = .next (s.goto (.probe [])) := by
    rw [call_ready hr, enter, boardCall, earlyBar_eq_none hb (.inr rfl)]
  rw [runEvents_of_next hcall, runEvents_probe 7 ⟨ha, hpresent, hr, hb⟩ rfl, List.nil_append,
    searchWindow_romWindow, identRead_eight, ProbeVerdict.ofVersion]
  by_cases hmajor : s.cfg.fwMajor = 1
  · rw [if_pos hmajor, if_pos hmajor]; rfl
  · rw [if_neg hmajor, if_neg hmajor]; rfl

/-- Settles O17: RD.IDENT is a read of IDROM, which is the list of R100. -/
theorem identReadStepsRoundTheRom : Obligations.IdentReadStepsRoundTheRom :=
  ⟨decode_word_rdIdent, fun s hpresent => by
    rw [← idrom_eq_getD]
    exact exec_rdIdent_present hpresent⟩

/-- Settles O55: a call that uses the board and a line with any operation but RD.IDENT are stopped by one bar (R108,
R271), `probe` and RD.IDENT by its first half; the other refusals are guards of the call itself. -/
theorem procedureGuards : Obligations.ProcedureGuards := by
  refine ⟨fun s p => rfl, fun s p hidle happ => call_reentered hidle happ p,
    fun s p hr hp hb hunprobed => ?_, fun s p hr hp hunbound => ?_, fun s ticks hr hticks => ?_,
    fun s hr hiters => ?_, fun s e c rest hr hagenda hevent hc => ?_,
    fun s e c rest hr hagenda hevent hdecode hunbound => ?_⟩
  · exact (call_ready hr p).trans (enter_barred hp (earlyBar_unprobed hb hunprobed))
  · rw [call_ready hr]
    rcases hp with hp | rfl
    · exact enter_barred hp (earlyBar_unbound hunbound false)
    · exact boardCall_barred (earlyBar_unbound hunbound true) _
  · exact (call_ready hr _).trans (if_neg (not_lt.mpr hticks))
  · exact (call_ready hr _).trans (if_pos hiters)
  · obtain ⟨write, hstep⟩ := step_line hagenda hevent
    have hbarred : ∀ {x}, s.earlyBar false = some x → step s = .refused x := fun h =>
      hstep.trans (hostLine_barred (s := { s with agenda := rest }) hr hc h)
    exact ⟨fun hunbound => hbarred (earlyBar_unbound hunbound false),
      fun hb hunprobed => hbarred (earlyBar_unprobed hb hunprobed)⟩
  · obtain ⟨write, hstep⟩ := step_line hagenda hevent
    rw [hstep, hostLine_decoded (s := { s with agenda := rest }) hr hdecode]
    exact appIssue_barred (earlyBar_unbound (s := { s with agenda := rest }) hunbound _) _

end Sys2Proof
end

section
/-! The FIFO's operations and the engine's two steps (O21 to O27, O60), and the engine clocking a row of bytes (O28,
O29). -/

namespace Sys2Proof

namespace Machine

variable {cfg : Params} {d : Device} {s t : State} {b r : Byte} {q : List Byte} {es : List Event}

/-! ## The conditions of R130 and R140 -/

theorem Device.quiet_iff :
    d.quiet = true ↔ d.feed = 0 ∧ d.discard = 0 ∧ d.txq = [] ∧ d.busy = false := by
  simp only [Device.quiet, Bool.and_eq_true, beq_iff_eq, List.isEmpty_iff, Bool.not_eq_true', and_assoc]

theorem Device.hasSource_iff : d.hasSource = true ↔ d.txq ≠ [] ∨ d.feed ≠ 0 := by
  simp only [Device.hasSource, Bool.or_eq_true, Bool.not_eq_true', List.isEmpty_eq_false_iff, bne_iff_ne]

/-! ## Operations on a present board (R122 to R130) -/

theorem plainRead_present (h : s.env.boardPresent = true) (f : Device → Byte) :
    plainRead s f = .next (s.answer (f s.dev)) :=
  readAccess_present h _

theorem exec_rdFifoData_cons (h : s.env.boardPresent = true) (hq : s.dev.rxq = b :: q) :
    exec .rdFifoData s = .next ((s.setDev (s.dev.popRx q)).answer b) := by
  rw [exec, execRdFifoData, readAccess_present h, hq]

theorem exec_rdFifoData_nil (h : s.env.boardPresent = true) (hq : s.dev.rxq = []) :
    exec .rdFifoData s = .refused .rxUnderflow := by
  rw [exec, execRdFifoData, readAccess_present h, hq]

theorem exec_wrFifoData_room (h : s.env.boardPresent = true) (hroom : s.dev.txq.length < s.cfg.fifoDepth) (b : Byte) :
    exec (.wrFifoData b) s = .next (s.setDev (s.dev.pushTx b)) := by
  rw [exec, execWrFifoData, writeAccess_present h, if_pos hroom]

theorem exec_wrFifoData_full (h : s.env.boardPresent = true) (hfull : s.cfg.fifoDepth ≤ s.dev.txq.length) (b : Byte) :
    exec (.wrFifoData b) s = .refused .txOverflow := by
  rw [exec, execWrFifoData, writeAccess_present h, if_neg (not_lt.mpr hfull)]

theorem exec_wrRxDiscard (x : Byte) (s : State) :
    exec (.wrRxDiscard x) s =
      quietWrite s .countWriteWhileActive fun dev => { dev with discard := transferCount dev.lenHi x } := rfl

theorem exec_wrTxFeed (x : Byte) (s : State) :
    exec (.wrTxFeed x) s =
      quietWrite s .countWriteWhileActive fun dev => { dev with feed := transferCount dev.lenHi x } := rfl

/-! ## A transfer count (R63, R126, R127) -/

theorem transferCount_toNat (hi lo : Byte) : (transferCount hi lo).toNat = hi.toNat * 256 + lo.toNat := by
  have hlo : lo.toNat < 2 ^ 8 := lo.isLt
  rw [transferCount, BitVec.toNat_append, ← Nat.shiftLeft_add_eq_or_of_lt hlo, Nat.shiftLeft_eq]

theorem transferCount_eq (hi lo : Byte) : transferCount hi lo = BitVec.ofNat 16 (hi.toNat * 256 + lo.toNat) := by
  rw [← transferCount_toNat, BitVec.ofNat_toNat, BitVec.setWidth_eq]

/-! ## The engine's steps (R140, R141) -/

theorem Device.launch_cons (hq : d.txq = b :: q) :
    d.launch cfg = { d.popTx q with shiftTx := b, busy := true } := by
  rw [Device.launch, hq]

theorem Device.launch_nil (hq : d.txq = []) :
    d.launch cfg = { d with shiftTx := cfg.dummyTxByte, feed := d.feed - 1, busy := true } := by
  rw [Device.launch, hq]

theorem engLaunch_enabled (hidle : s.dev.busy = false) (hsource : s.dev.txq ≠ [] ∨ s.dev.feed ≠ 0)
    (hsink : s.dev.discard ≠ 0 ∨ s.dev.rxq.length < s.cfg.fifoDepth) :
    runEvent .engLaunch s = .next (s.setDev (s.dev.launch s.cfg)) :=
  if_pos (Device.canLaunch_iff.mpr ⟨hidle, Device.hasSource_iff.mpr hsource, Device.hasSink_iff.mpr hsink⟩)

theorem engComplete_busy (h : s.dev.busy = true) (r : Byte) :
    runEvent (.engComplete r) s =
      .next { s.setDev (s.dev.complete r) with wire := s.wire ++ [⟨s.dev.ss, s.dev.shiftTx, r⟩] } :=
  if_pos h

/-! ## One exchange, then many (R143) -/

/-- A dummy byte has been sent and its reply `r` queued. -/
def State.fed (s : State) (r : Byte) : State :=
  { s with
    dev := { s.dev with
      feed := s.dev.feed - 1, rxq := s.dev.rxq ++ [r], rxTail := s.dev.rxTail + 1, shiftTx := s.cfg.dummyTxByte }
    wire := s.wire ++ [⟨s.dev.ss, s.cfg.dummyTxByte, r⟩] }

/-- The byte `b` at the head of TXQ, which leaves `q`, has been sent and its reply `r` dropped. -/
def State.sent (s : State) (b : Byte) (q : List Byte) (r : Byte) : State :=
  { s with
    dev := { s.dev with txq := q, txHead := s.dev.txHead + 1, discard := s.dev.discard - 1, shiftTx := b }
    wire := s.wire ++ [⟨s.dev.ss, b, r⟩] }

/-- R143: a launch with nothing queued, and its completion with nothing to discard. -/
theorem runEvents_fed (hidle : s.dev.busy = false) (hq : s.dev.txq = []) (hd : s.dev.discard = 0)
    (hfeed : s.dev.feed ≠ 0) (hroom : s.dev.rxq.length < s.cfg.fifoDepth) :
    runEvents (.engLaunch :: .engComplete r :: es) s = runEvents es (s.fed r) := by
  rw [runEvents_of_next (engLaunch_enabled hidle (.inr hfeed) (.inr hroom)), Device.launch_nil hq,
    runEvents_of_next (engComplete_busy rfl r)]
  simp only [State.setDev, Device.complete, hd, if_true, Device.pushRx, State.fed, ← hidle]

/-- R143: a launch of a queued byte, and its completion with DISCARD not used up. -/
theorem runEvents_sent (hidle : s.dev.busy = false) (hq : s.dev.txq = b :: q) (hd : s.dev.discard ≠ 0) :
    runEvents (.engLaunch :: .engComplete r :: es) s = runEvents es (s.sent b q r) := by
  have hsource : s.dev.txq ≠ [] := by rw [hq]; exact List.cons_ne_nil b q
  rw [runEvents_of_next (engLaunch_enabled hidle (.inl hsource) (.inl hd)), Device.launch_cons hq,
    runEvents_of_next (engComplete_busy rfl r)]
  simp only [State.setDev, Device.complete, Device.popTx, hd, if_false, State.sent, ← hidle]

theorem count_ne_zero_of_lt {c : Count} {n : Nat} (h : n < c.toNat) : c ≠ 0 := by
  rintro rfl
  exact absurd h (Nat.not_lt_zero n)

theorem count_sub_one_toNat {c : Count} (h : c ≠ 0) : (c - 1).toNat + 1 = c.toNat := by
  bv_omega

theorem sub_one_sub_ofNat {w : Nat} (c : BitVec w) (n : Nat) :
    c - 1#w - BitVec.ofNat w n = c - BitVec.ofNat w (n + 1) := by
  rw [BitVec.ofNat_add, sub_sub, add_comm (BitVec.ofNat w n)]

theorem add_one_add_ofNat {w : Nat} (c : BitVec w) (n : Nat) :
    c + 1#w + BitVec.ofNat w n = c + BitVec.ofNat w (n + 1) := by
  rw [BitVec.ofNat_add, add_assoc, add_comm (BitVec.ofNat w n)]

end Machine

open Machine

/-- Settles O21: each is a read of one register, answered by a present board. -/
theorem plainReadsReturnTheirRegister : Obligations.PlainReadsReturnTheirRegister :=
  ⟨fun d => ⟨decode_word_rdRxHead d, decode_word_rdRxTail d, decode_word_rdTxHead d, decode_word_rdTxTail d,
      decode_word_rdIntFired d⟩,
    fun _ hpresent => ⟨plainRead_present hpresent _, plainRead_present hpresent _, plainRead_present hpresent _,
      plainRead_present hpresent _, execRdIntFired_present hpresent⟩⟩

/-- Settles O22: both are writes guarded by a quiet engine, of the count LEN_HI and the byte make. -/
theorem triggerWritesLoadTheCount : Obligations.TriggerWritesLoadTheCount := by
  refine ⟨decode_word_wrRxDiscard, decode_word_wrTxFeed, fun s d hpresent => ⟨fun hq => ?_, fun hq => ?_⟩⟩
  · rw [← transferCount_eq]
    exact ⟨(exec_wrRxDiscard d s).trans (quietWrite_quiet hpresent hq _ _),
      (exec_wrTxFeed d s).trans (quietWrite_quiet hpresent hq _ _)⟩
  · exact ⟨(exec_wrRxDiscard d s).trans (quietWrite_active hpresent hq _ _),
      (exec_wrTxFeed d s).trans (quietWrite_active hpresent hq _ _)⟩

/-- Settles O23: all five are writes guarded by a quiet engine. -/
theorem activeEngineRefusesCountAndConfigWrites : Obligations.ActiveEngineRefusesCountAndConfigWrites := by
  have hquiet : ∀ d : Device,
      d.quiet = true ↔ d.feed = 0 ∧ d.discard = 0 ∧ d.txq.length = 0 ∧ d.busy = false := fun d => by
    rw [Device.quiet_iff, List.length_eq_zero_iff]
  refine ⟨hquiet, fun s d hpresent hactive => ?_⟩
  rw [← hquiet, Bool.not_eq_true] at hactive
  exact ⟨(exec_wrLenHi d s).trans (quietWrite_active hpresent hactive _ _),
    (exec_wrRxDiscard d s).trans (quietWrite_active hpresent hactive _ _),
    (exec_wrTxFeed d s).trans (quietWrite_active hpresent hactive _ _),
    (exec_wrSpiFreq d s).trans (quietWrite_active hpresent hactive _ _),
    (exec_wrSs d s).trans (quietWrite_active hpresent hactive _ _)⟩

/-- Settles O24: the two cases of the queue. -/
theorem fifoDataReadPopsTheReceiveFifo : Obligations.FifoDataReadPopsTheReceiveFifo :=
  ⟨decode_word_rdFifoData, fun _ _ _ hpresent hq => exec_rdFifoData_cons hpresent hq,
    fun _ hpresent hq => exec_rdFifoData_nil hpresent hq⟩

/-- Settles O25: the two sides of the guard. -/
theorem fifoDataWritePushesTheTransmitFifo : Obligations.FifoDataWritePushesTheTransmitFifo :=
  ⟨decode_word_wrFifoData, fun _ d hpresent hroom => exec_wrFifoData_room hpresent hroom d,
    fun _ d hpresent hfull => exec_wrFifoData_full hpresent hfull d⟩

/-- Settles O26: the guard of R140 and its two sources. -/
theorem engineLaunchTakesOneByte : Obligations.EngineLaunchTakesOneByte := by
  refine ⟨fun s b q hidle hq hsink => ?_, fun s hidle hq hfeed hsink => ?_, fun s hno => ?_⟩
  · have hsource : s.dev.txq ≠ [] := by rw [hq]; exact List.cons_ne_nil b q
    rw [engLaunch_enabled hidle (.inl hsource) hsink, Device.launch_cons hq]
    rfl
  · rw [engLaunch_enabled hidle (.inr hfeed) hsink, Device.launch_nil hq]
    rfl
  · rw [← Device.hasSource_iff, ← Device.hasSink_iff, ← Device.canLaunch_iff] at hno
    exact if_neg hno

/-- Settles O27: the two sinks of R141. -/
theorem engineCompleteDeliversOneByte : Obligations.EngineCompleteDeliversOneByte := by
  refine ⟨fun s r hbusy hd => ?_, fun s r hbusy hd => ?_, fun s r hidle => ?_⟩
  · rw [engComplete_busy hbusy, Device.complete, if_neg hd]
    rfl
  · rw [engComplete_busy hbusy, Device.complete, if_pos hd]
    rfl
  · exact if_neg (Bool.eq_false_iff.mp hidle)

/-- Settles O28, by induction on the replies: the first exchange leaves FEED, room and an idle engine for the rest. -/
theorem feedQueuesRepliesInOrder : Obligations.FeedQueuesRepliesInOrder := by
  intro rs
  induction rs with
  | nil => intro s _ _ _ _ _; simp [runEvents]
  | cons r rs ih =>
    intro s hidle hq hd hfeed hroom
    simp only [List.length_cons] at hfeed hroom
    have hfeed0 : s.dev.feed ≠ 0 := count_ne_zero_of_lt (n := rs.length) (by omega)
    have hcount := count_sub_one_toNat hfeed0
    have hrest := ih (s.fed r) hidle hq hd (show rs.length ≤ (s.dev.feed - 1).toNat by omega)
      (by simp only [State.fed, List.length_append, List.length_singleton]; omega)
    simp only [List.flatMap_cons, List.cons_append, List.nil_append]
    rw [runEvents_fed hidle hq hd hfeed0 (by omega), hrest]
    simp [State.fed, sub_one_sub_ofNat, add_one_add_ofNat]

/-- Settles O29, by induction on the queued bytes: the first exchange leaves the rest queued, and DISCARD for them. -/
theorem discardedWriteSendsInOrder : Obligations.DiscardedWriteSendsInOrder := by
  intro xs
  induction xs with
  | nil =>
    intro s _ hq _
    have hempty : [] = s.dev.txq := hq.symm
    simp only [List.flatMap_nil, runEvents, List.map_nil, List.length_nil, List.getLastD_nil, BitVec.sub_zero,
      BitVec.add_zero, List.append_nil]
    rw [hempty]
  | cons x xs ih =>
    intro s hidle hq hdiscard
    simp only [List.map_cons, List.length_cons] at hq hdiscard
    have hd : s.dev.discard ≠ 0 := count_ne_zero_of_lt (n := xs.length) (by omega)
    have hcount := count_sub_one_toNat hd
    have hrest := ih (s.sent x.1 (xs.map Prod.fst) x.2) hidle rfl (show xs.length ≤ (s.dev.discard - 1).toNat by omega)
    simp only [List.flatMap_cons, List.cons_append, List.nil_append]
    rw [runEvents_sent hidle hq hd, hrest]
    simp [-List.getLastD_eq_getLast?, List.getLastD_cons, State.sent, sub_one_sub_ofNat, add_one_add_ofNat]

/-- Settles O60, from `step_effect`: the operations that write a setting are guarded by a quiet engine, RD.IDENT moves
IDPTR, and no other step of any agent reaches them. -/
theorem settingsChangeOnlyWhileQuiet : Obligations.SettingsChangeOnlyWhileQuiet := by
  intro s t h
  have heffect := step_effect h
  have hdev := heffect.dev
  rw [← and_assoc]
  refine ⟨?_, heffect.cfg, heffect.present⟩
  generalize t.dev = d' at hdev
  cases hdev with
  | access ha =>
    cases ha with
    | idptr => exact ⟨fun _ => ⟨rfl, rfl, rfl⟩, .inr rfl⟩
    | lenHi hq x | spiFreq hq x | ss hq x => exact ⟨fun hactive => absurd hq (by simp [hactive]), .inl rfl⟩
    | _ => exact ⟨fun _ => ⟨rfl, rfl, rfl⟩, .inl rfl⟩
  | launch _ =>
    rcases s.dev.launch_cases s.cfg with ⟨b, q, -, he⟩ | ⟨-, he⟩ <;> rw [he] <;>
      exact ⟨fun _ => ⟨rfl, rfl, rfl⟩, .inl rfl⟩
  | complete r _ =>
    rcases s.dev.complete_cases r with ⟨-, he⟩ | ⟨-, he⟩ <;> rw [he] <;>
      exact ⟨fun _ => ⟨rfl, rfl, rfl⟩, .inl rfl⟩
  | pin p => rw [Device.pinChange_frame]; exact ⟨fun _ => ⟨rfl, rfl, rfl⟩, .inl rfl⟩
  | tick => exact ⟨fun _ => ⟨rfl, rfl, rfl⟩, .inl rfl⟩

end Sys2Proof
end

section
/-! What stands beside a running transfer, and the transactions it makes: a step is the procedure's own, or the engine's,
or one that reaches neither FIFO (`step_split`); and each register's read or write in a procedure of a driver that may
use the board (`State.Driving`). -/

namespace Sys2Proof.Machine

variable {cfg : Params} {d d' : Device} {w w' : List Exchange} {s t u : State} {i : Instr} {a : AppState} {e : Event}

/-! ## Steps beside the application context -/

/-- What a step beside the application context can do to the device and to the record of the wire, while the interrupt
context is attached: an engine step, or one that reaches the pins, FIRED and TICK at most. -/
inductive Device.EngineStep (cfg : Params) (d : Device) (w : List Exchange) : Device → List Exchange → Prop
  | launch (hc : d.canLaunch cfg = true) : EngineStep cfg d w (d.launch cfg) w
  | complete (r : Byte) (hb : d.busy = true) :
      EngineStep cfg d w (d.complete r) (w ++ [⟨d.ss, d.shiftTx, r⟩])
  | apart (cd ext : Bool) (f : Byte) (n : Tick) :
      EngineStep cfg d w { d with pinCd := cd, pinExt := ext, fired := f, tick := n } w

theorem Device.EngineStep.refl (cfg : Params) (d : Device) (w : List Exchange) : d.EngineStep cfg w d w :=
  .apart d.pinCd d.pinExt d.fired d.tick

/-- The step left the application context where it was. -/
structure State.Beside (s t : State) : Prop where
  cfg : t.cfg = s.cfg
  app : t.host.app = s.host.app
  engine : s.dev.EngineStep s.cfg s.wire t.dev t.wire

/-- A step of the host that is not the application context's. -/
theorem State.Beside.setHost {h : HostState} (happ : h.app = s.host.app) : s.Beside (s.setHost h) :=
  ⟨rfl, happ, .refl _ _ _⟩

theorem execWrIntFired_dev {x : Byte} (h : exec (.wrIntFired x) s = .next t) :
    t.dev = { s.dev with fired := t.dev.fired } := by
  rcases plainWrite_next (show execWrIntFired x s = .next t from h) with rfl | rfl <;> rfl

theorem execRdIntFired_dev (h : exec .rdIntFired s = .next t) : t.dev = s.dev := by
  rcases plainRead_next (show execRdIntFired s = .next t from h) with rfl | rfl <;> rfl

/-- R180: the handler of an attached context reads and clears FIRED, and raises its signal. -/
theorem handlerStep_beside (ha : s.Attached) (h : handlerStep s = .next t) : s.Beside t := by
  unfold handlerStep at h
  rw [ha.context] at h
  split at h
  · cases h
  · obtain ⟨u, hu, hk⟩ := andThen_next h
    rw [hostAccess_attached ha.params] at hu
    cases hk
    refine ⟨exec_cfg (t := u) hu, show u.host.app = s.host.app by rw [exec_host hu], ?_⟩
    rw [State.setHost_dev, State.setHost_wire, execRdIntFired_dev hu, exec_wire hu]
    exact .refl _ _ _
  · obtain ⟨u, hu, hk⟩ := andThen_next h
    rw [hostAccess_attached ha.params] at hu
    cases hk
    refine ⟨exec_cfg (t := u) hu, show u.host.app = s.host.app by rw [exec_host hu], ?_⟩
    rw [State.setHost_dev, State.setHost_wire, execWrIntFired_dev hu, exec_wire hu]
    exact .apart _ _ _ _
  · cases h; exact .setHost rfl

theorem pinChange_beside (p : Pin) (s : State) : s.Beside (s.setDev (s.dev.pinChange s.cfg p)) := by
  refine ⟨rfl, rfl, ?_⟩
  rw [State.setDev_dev, Device.pinChange_frame]
  exact .apart _ _ _ _

/-! ## Passes are entered by a bulk transfer alone -/

/-- Between its passes or inside one, a bulk transfer mirrors a cursor. -/
def AppState.inPass : AppState → Bool
  | .spiRead .poll _ | .spiRead .copy _ | .spiWrite .poll _ | .spiWrite .push _ => true
  | _ => false

/-- Where this outcome leads, the application context is in no pass. -/
def OffPass (o : Out) : Prop := ∀ t, o = .next t → t.host.app.inPass = false

@[simp] theorem offPass_next : OffPass (.next t) ↔ t.host.app.inPass = false :=
  ⟨fun h => h t rfl, fun h _ ht => Host.Outcome.next.inj ht ▸ h⟩

@[simp] theorem offPass_refused (r : Refusal) : OffPass (.refused r) := by
  intro t h
  cases h

theorem offPass_ite {c : Prop} [Decidable c] {o o' : Out} (h : c → OffPass o) (h' : ¬c → OffPass o') :
    OffPass (if c then o else o') := by
  split
  · exact h ‹_›
  · exact h' ‹_›

theorem offPass_andThen {o : Out} {k : State → Out} (h : ∀ u, OffPass (k u)) : OffPass (andThen o k) := by
  intro t ht
  obtain ⟨u, -, hk⟩ := andThen_next ht
  exact h u t hk

theorem offPass_rd {k : Byte → State → Out} (h : ∀ x u, OffPass (k x u)) : OffPass (rd i s k) :=
  offPass_andThen fun u => h u.readData u

theorem offPass_wr {k : State → Out} (h : ∀ u, OffPass (k u)) : OffPass (wr i s k) := offPass_andThen h

theorem offPass_goto (s : State) (h : a.inPass = false) : OffPass (.next (s.goto a)) := offPass_next.mpr h

theorem offPass_finish (s : State) (r : Result) : OffPass (.next (s.finish r)) := offPass_next.mpr rfl

theorem offPass_pollAgain {polls copied : Nat} {again : Nat → AppState} (h : ∀ n, (again n).inPass = false) :
    OffPass (pollAgain s polls copied again) := by
  intro t ht
  rcases pollAgain_next ht with rfl | rfl
  · exact h _
  · rfl

theorem offPass_boardCall {probing : Bool} (h : a.inPass = false) : OffPass (boardCall s probing a) := by
  intro t ht
  rw [(boardCall_next ht).2]
  exact h

theorem offPass_waitStep {k : State → Out} (h : ∀ u, OffPass (k u)) : OffPass (waitStep s k) :=
  offPass_ite (fun _ => h _) fun _ => offPass_refused _

theorem offPass_ticksStep {pc : TickPc} {next : TickPc → AppState} {k : Tick → State → Out}
    (hnext : ∀ pc, (next pc).inPass = false) (hk : ∀ v u, OffPass (k v u)) : OffPass (ticksStep pc s next k) := by
  cases pc with simp only [ticksStep]
  | hi => exact offPass_rd fun _ _ => offPass_goto _ (hnext _)
  | mid x => exact offPass_rd fun _ _ => offPass_goto _ (hnext _)
  | lo x y => exact offPass_rd fun _ _ => hk _ _

theorem offPass_probeStep (bytes : List Byte) (s : State) : OffPass (probeStep bytes s) :=
  offPass_rd fun _ _ => offPass_ite (fun _ => offPass_goto _ rfl) fun _ =>
    offPass_next.mpr (by unfold State.probeDone; split <;> rfl)

theorem offPass_spiRead1Step (pc : Read1Pc) (s : State) : OffPass (spiRead1Step pc s) := by
  cases pc with simp only [spiRead1Step]
  | lenHi => exact offPass_wr fun _ => offPass_goto _ rfl
  | feed => exact offPass_wr fun _ => offPass_goto _ rfl
  | head => exact offPass_rd fun _ _ => offPass_goto _ rfl
  | spin h n =>
    exact offPass_rd fun _ _ => offPass_ite (fun _ => offPass_pollAgain fun _ => rfl) fun _ => offPass_goto _ rfl
  | data => exact offPass_rd fun _ _ => offPass_finish _ _

theorem offPass_spiWrite1Step (pc : Write1Pc) (b : Byte) (s : State) : OffPass (spiWrite1Step pc b s) := by
  cases pc with simp only [spiWrite1Step]
  | lenHi => exact offPass_wr fun _ => offPass_goto _ rfl
  | discard => exact offPass_wr fun _ => offPass_goto _ rfl
  | tail => exact offPass_rd fun _ _ => offPass_goto _ rfl
  | spin h n =>
    exact offPass_rd fun _ _ => offPass_ite (fun _ => offPass_goto _ rfl) fun _ => offPass_pollAgain fun _ => rfl
  | data => exact offPass_wr fun _ => offPass_goto _ rfl
  | status n =>
    exact offPass_rd fun _ _ => offPass_ite (fun _ => offPass_finish _ _) fun _ => offPass_pollAgain fun _ => rfl

theorem offPass_delayStep (n : Nat) (dl : Option Tick) (pc : TickPc) (s : State) : OffPass (delayStep n dl pc s) := by
  refine offPass_ticksStep (fun _ => rfl) fun v u => ?_
  cases dl with
  | none => exact offPass_goto _ rfl
  | some x => exact offPass_ite (fun _ => offPass_finish _ _) fun _ => offPass_goto _ rfl

theorem offPass_calibrateStep (pc : CalPc) (s : State) : OffPass (calibrateStep pc s) := by
  cases pc with
  | decide m =>
    simp only [calibrateStep]
    split
    · split
      · exact offPass_goto _ rfl
      · exact offPass_next.mpr rfl
    · exact offPass_refused _
  | _ => exact offPass_goto _ rfl

theorem offPass_waitDeadlineStep (n : Nat) (sigs : List Nat) (s : State) : OffPass (waitDeadlineStep n sigs s) :=
  offPass_ite (fun _ => offPass_finish _ _) fun _ => offPass_ite (fun _ => offPass_finish _ _) fun _ =>
    offPass_ite (fun _ => offPass_finish _ _) fun _ => offPass_refused _

/-- No procedure but the two bulk transfers comes to a pass. -/
theorem offPass_procStep (hread : ∀ pc v, s.host.app ≠ .spiRead pc v) (hwrite : ∀ pc v, s.host.app ≠ .spiWrite pc v) :
    OffPass (procStep s) := by
  unfold procStep
  split
  · exact offPass_refused _
  · exact offPass_finish _ _
  · exact offPass_finish _ _
  · exact offPass_probeStep _ _
  · exact offPass_finish _ _
  · exact offPass_finish _ _
  · exact offPass_wr fun _ => offPass_finish _ _
  · exact offPass_wr fun _ => offPass_finish _ _
  · next m _ =>
    cases m with
    | none => exact offPass_goto _ rfl
    | some x => exact offPass_wr fun _ => offPass_finish _ _
  · exact offPass_waitStep fun _ => offPass_finish _ _
  · exact offPass_waitStep fun _ => offPass_goto _ rfl
  · exact offPass_rd fun _ _ => offPass_finish _ _
  · next happ => exact absurd happ (hread _ _)
  · exact offPass_spiRead1Step _ _
  · next happ => exact absurd happ (hwrite _ _)
  · exact offPass_spiWrite1Step _ _ _
  · exact offPass_ticksStep (fun _ => rfl) fun _ _ => offPass_finish _ _
  · exact offPass_delayStep _ _ _ _
  · exact offPass_calibrateStep _ _
  · unfold shortWaitStep
    split
    · exact offPass_finish _ _
    · exact offPass_refused _
  · exact offPass_wr fun _ => offPass_finish _ _
  · exact offPass_wr fun _ => offPass_goto _ rfl
  · exact offPass_ite (fun _ => offPass_finish _ _) fun _ => offPass_finish _ _
  · exact offPass_finish _ _
  · exact offPass_waitDeadlineStep _ _ _

/-- A call enters a procedure before its first pass. -/
theorem offPass_enter (p : Call) (s : State) : OffPass (enter p s) := by
  cases p with
  | init | destroy | deregister | waitSignal | openTimer | closeTimer => exact offPass_goto _ rfl
  | spiRead size => exact offPass_boardCall (by unfold readEntry; split <;> rfl)
  | spiWrite buf =>
    exact offPass_ite (fun _ => offPass_boardCall (by unfold writeEntry; split <;> rfl)) fun _ => offPass_refused _
  | delay n => exact offPass_ite (fun _ => offPass_boardCall rfl) fun _ => offPass_refused _
  | calibrate =>
    exact offPass_ite (fun _ => offPass_ite (fun _ => offPass_goto _ rfl) fun _ => offPass_next.mpr rfl) fun _ =>
      offPass_refused _
  | shortWait => exact offPass_ite (fun _ => offPass_refused _) fun _ => offPass_goto _ rfl
  | waitDeadline n us sigs => exact offPass_ite (fun _ => offPass_goto _ rfl) fun _ => offPass_refused _
  | _ => exact offPass_boardCall rfl

/-! ## Whose step it is -/

/-- A line of the application context, or a call: the context was free, and is in no pass after it. -/
structure State.FromIdle (s t : State) : Prop where
  idle : s.host.app = .idle
  offPass : t.host.app.inPass = false

theorem hostLine_fromIdle {c : Except DecodeError BusCycle} {write : Bool} (h : hostLine c write s = .next t) :
    s.FromIdle t := by
  obtain ⟨-, happ, hline⟩ := hostLine_next h
  have hkept : t.host.app = s.host.app := by
    rcases hline with ⟨i, -, u, hu, rfl⟩ | ⟨e, w', hr⟩
    · rw [State.noteIssued_host_app, exec_host hu]
    · rw [rejected_host hr]
  exact ⟨happ, by rw [hkept, happ]; rfl⟩

theorem startCall_fromIdle {ctx : Context} {p : Call} (h : startCall ctx p s = .next t) : s.FromIdle t := by
  unfold startCall at h
  split at h
  · cases h
  · split at h
    · cases h
    · split at h
      · exact ⟨‹_›, offPass_enter p s t h⟩
      · cases h

/-- An event is a step of the running procedure, starts from a free context, or leaves the context where it is. -/
theorem runEvent_split (ha : s.Attached) (h : runEvent e s = .next t) :
    (s.host.handler = .idle ∧ procStep s = .next t) ∨ s.FromIdle t ∨ s.Beside t := by
  cases e with
  | appStep => exact .inl (appStep_next h)
  | bus c => exact .inr (.inl (hostLine_fromIdle (c := .ok c) h))
  | access a => exact .inr (.inl (hostLine_fromIdle (c := decodeAccess s.placement a) h))
  | call ctx p => exact .inr (.inl (startCall_fromIdle h))
  | engLaunch => obtain ⟨hc, rfl⟩ := engLaunch_next h; exact .inr (.inr ⟨rfl, rfl, .launch hc⟩)
  | engComplete r => obtain ⟨hb, rfl⟩ := engComplete_next h; exact .inr (.inr ⟨rfl, rfl, .complete r hb⟩)
  | pinChange p => cases h; exact .inr (.inr (pinChange_beside p s))
  | tickInc => cases h; exact .inr (.inr ⟨rfl, rfl, .apart _ _ _ _⟩)
  | irqDispatch => obtain ⟨-, rfl⟩ := irqDispatch_next h; exact .inr (.inr (.setHost rfl))
  | irqSpurious => obtain ⟨-, rfl⟩ := irqSpurious_next h; exact .inr (.inr (.setHost rfl))
  | handlerStep => exact .inr (.inr (handlerStep_beside ha h))
  | deadline => obtain ⟨x, rfl⟩ := deadlinePasses_next h; exact .inr (.inr (.setHost rfl))
  | signal n => cases h; exact .inr (.inr (.setHost rfl))

/-- The same of a step; the procedure's runs in the state without the event taken, or with one free value used. -/
theorem step_split (ha : s.Attached) (h : step s = .next t) :
    (∃ agenda draws, s.host.handler = .idle ∧ procStep { s with agenda := agenda, draws := draws } = .next t) ∨
      s.FromIdle t ∨ s.Beside t := by
  rcases step_cases h with ⟨e, rest, -, he⟩ | ⟨-, rfl | he⟩
  · rcases runEvent_split (s := { s with agenda := rest }) ⟨ha.params, ha.base, ha.context⟩ he with
      hp | ⟨happ, hpass⟩ | ⟨hcfg, happ, hengine⟩
    · exact .inl ⟨rest, s.draws, hp⟩
    · exact .inr (.inl ⟨happ, hpass⟩)
    · exact .inr (.inr ⟨hcfg, happ, hengine⟩)
  · exact .inr (.inr ⟨rfl, rfl, .refl _ _ _⟩)
  · rcases runEvent_split (s := s.drawn) ⟨ha.params, ha.base, ha.context⟩ he with
      hp | ⟨happ, hpass⟩ | ⟨hcfg, happ, hengine⟩
    · exact .inl ⟨s.agenda, s.draws + 1, hp⟩
    · exact .inr (.inl ⟨happ, hpass⟩)
    · exact .inr (.inr ⟨hcfg, happ, hengine⟩)

/-- With the application context's step at the head of the agenda. -/
theorem step_appStep {rest : List Event} (hagenda : s.agenda = .appStep :: rest) (hidle : s.host.handler = .idle) :
    step s = procStep { s with agenda := rest } :=
  (step_of_agenda hagenda).trans (appStep_of_idle (s := { s with agenda := rest }) hidle)

/-! ## The transactions of a driver that may use the board (R41, R108, R271) -/

/-- The driver is bound to a present board and has probed it. -/
structure State.Driving (s : State) : Prop where
  attached : s.Attached
  present : s.env.boardPresent = true
  bound : s.host.bound = true
  probed : s.host.probed = true

theorem State.Operational.driving (h : s.Operational) : s.Driving := ⟨h.attached, h.present, h.bound, h.probed⟩

/-- The operation R279's wait is about: a write of SS. -/
def writesSs : Instr → Bool
  | .wrSs _ => true
  | _ => false

/-- Only a write of SS is noted (R279). -/
theorem noteIssued_of_writesSs (hi : writesSs i = false) (s : State) : s.noteIssued i = s := by
  cases i with
  | wrSs x => cases hi
  | _ => rfl

theorem lineBar_driving (h : s.Driving) (hi : writesSs i = false) : s.lineBar i = none := by
  refine lineBar_eq_none h.bound (.inl h.probed) (holdBreach_eq_false fun x hx => ?_)
  rw [hx] at hi
  cases hi

theorem rd_driving (h : s.Driving) (hi : writesSs i = false) (k : Byte → State → Out) :
    rd i s k = andThen (exec i s) fun u => k u.readData u := by
  simp only [rd_attached h.attached (lineBar_driving h hi), noteIssued_of_writesSs hi]

theorem wr_driving (h : s.Driving) (hi : writesSs i = false) (k : State → Out) : wr i s k = andThen (exec i s) k := by
  simp only [wr_attached h.attached (lineBar_driving h hi), noteIssued_of_writesSs hi]

/-- A read other than RD.IDENT that a procedure has made was not barred. -/
theorem driving_of_rd {k : Byte → State → Out} (ha : s.Attached) (hp : s.env.boardPresent = true)
    (h : rd i s k = .next t) (hi : i ≠ .rdIdent) : s.Driving := by
  obtain ⟨hbound, hprobed, -⟩ := lineBar_none (rd_next h).1
  exact ⟨ha, hp, hbound, hprobed.resolve_right hi⟩

theorem driving_of_wr {k : State → Out} (ha : s.Attached) (hp : s.env.boardPresent = true)
    (h : wr i s k = .next t) (hi : i ≠ .rdIdent) : s.Driving := by
  obtain ⟨hbound, hprobed, -⟩ := lineBar_none (wr_next h).1
  exact ⟨ha, hp, hbound, hprobed.resolve_right hi⟩

section Transactions

variable (h : s.Driving)

include h

theorem rd_rdRxHead (k : Byte → State → Out) : rd .rdRxHead s k = k s.dev.rxHead (s.answer s.dev.rxHead) := by
  rw [rd_driving h rfl, exec, execRdRxHead, plainRead_present h.present]; rfl

theorem rd_rdRxTail (k : Byte → State → Out) : rd .rdRxTail s k = k s.dev.rxTail (s.answer s.dev.rxTail) := by
  rw [rd_driving h rfl, exec, execRdRxTail, plainRead_present h.present]; rfl

theorem rd_rdTxHead (k : Byte → State → Out) : rd .rdTxHead s k = k s.dev.txHead (s.answer s.dev.txHead) := by
  rw [rd_driving h rfl, exec, execRdTxHead, plainRead_present h.present]; rfl

theorem rd_rdTxTail (k : Byte → State → Out) : rd .rdTxTail s k = k s.dev.txTail (s.answer s.dev.txTail) := by
  rw [rd_driving h rfl, exec, execRdTxTail, plainRead_present h.present]; rfl

theorem rd_rdStatus (k : Byte → State → Out) :
    rd .rdStatus s k =
      k (statusByte s.cfg s.dev s.anyByte) (s.drawn.answer (statusByte s.cfg s.dev s.anyByte)) := by
  rw [rd_driving h rfl, exec, execRdStatus, drawnRead_present h.present]; rfl

theorem rd_rdFifoData_cons {b : Byte} {q : List Byte} (hq : s.dev.rxq = b :: q) (k : Byte → State → Out) :
    rd .rdFifoData s k = k b ((s.setDev (s.dev.popRx q)).answer b) := by
  rw [rd_driving h rfl, exec_rdFifoData_cons h.present hq]; rfl

theorem rd_rdFifoData_nil (hq : s.dev.rxq = []) (k : Byte → State → Out) :
    rd .rdFifoData s k = .refused .rxUnderflow := by
  rw [rd_driving h rfl, exec_rdFifoData_nil h.present hq]; rfl

theorem wr_wrFifoData (b : Byte) (k : State → Out) :
    wr (.wrFifoData b) s k =
      if s.dev.txq.length < s.cfg.fifoDepth then k (s.setDev (s.dev.pushTx b)) else .refused .txOverflow := by
  rw [wr_driving h rfl]
  split
  · next hroom => rw [exec_wrFifoData_room h.present hroom]; rfl
  · next hfull => rw [exec_wrFifoData_full h.present (not_lt.mp hfull)]; rfl

theorem wr_wrLenHi (x : Byte) (k : State → Out) :
    wr (.wrLenHi x) s k =
      if s.dev.quiet = true then k (s.setDev { s.dev with lenHi := x }) else .refused .countWriteWhileActive := by
  rw [wr_driving h rfl, exec_wrLenHi, quietWrite, writeAccess_present h.present]
  split <;> rfl

theorem wr_wrRxDiscard (x : Byte) (k : State → Out) :
    wr (.wrRxDiscard x) s k =
      if s.dev.quiet = true then k (s.setDev { s.dev with discard := transferCount s.dev.lenHi x })
      else .refused .countWriteWhileActive := by
  rw [wr_driving h rfl, exec_wrRxDiscard, quietWrite, writeAccess_present h.present]
  split <;> rfl

theorem wr_wrTxFeed (x : Byte) (k : State → Out) :
    wr (.wrTxFeed x) s k =
      if s.dev.quiet = true then k (s.setDev { s.dev with feed := transferCount s.dev.lenHi x })
      else .refused .countWriteWhileActive := by
  rw [wr_driving h rfl, exec_wrTxFeed, quietWrite, writeAccess_present h.present]
  split <;> rfl

end Transactions

/-! ## Polls and counts -/

/-- R281, log 10: a poll without progress is made again, or gives up where RETRY_BOUND is set. -/
theorem pollAgain_bounded {polls copied : Nat} {again : Nat → AppState} (h : pollAgain s polls copied again = .next t) :
    t = s.goto (again (polls + 1)) ∨ (s.cfg.retryBound ≠ none ∧ t = s.finish (.incomplete copied)) := by
  by_cases hb : s.cfg.retryBound = none
  · rw [pollAgain, hb] at h
    exact .inl (Host.Outcome.next.inj h).symm
  · exact (pollAgain_next h).imp_right fun ht => ⟨hb, ht⟩

theorem Params.wf_stRxdEmptyMask (h : cfg.wf = true) : cfg.stRxdEmptyMask ≠ 0 := by
  simp only [Params.wf, Bool.and_eq_true] at h
  obtain ⟨⟨⟨⟨⟨⟨⟨-, hmask⟩, -⟩, -⟩, -⟩, -⟩, -⟩, -⟩ := h
  rintro hzero
  rw [hzero] at hmask
  exact absurd hmask (by decide)

/-- R25, R285: the masked STATUS byte tells whether DISCARD is 0, whatever its other bits. -/
theorem rxDiscardEmpty_statusByte (hw : cfg.wf = true) (d : Device) (x : Byte) :
    rxDiscardEmpty cfg (statusByte cfg d x) = true ↔ d.discard = 0 := by
  have hmask := Params.wf_stRxdEmptyMask hw
  rw [rxDiscardEmpty, bne_iff_ne, statusByte]
  split
  · next hd =>
    have hset : (x ||| cfg.stRxdEmptyMask) &&& cfg.stRxdEmptyMask = cfg.stRxdEmptyMask := by
      ext k hk; simp +contextual
    rw [hset]
    exact ⟨fun _ => hd, fun _ => hmask⟩
  · next hd =>
    have hclear : x &&& ~~~cfg.stRxdEmptyMask &&& cfg.stRxdEmptyMask = 0 := by
      ext k hk; simp +contextual
    exact ⟨fun hne => absurd hclear hne, fun h => absurd h hd⟩

theorem countHigh_toNat (n : Count) : (countHigh n).toNat = n.toNat / 256 := by
  rw [countHigh, BitVec.extractLsb'_toNat, Nat.shiftRight_eq_div_pow]
  have hn : n.toNat < 2 ^ 16 := n.isLt
  omega

theorem countLow_toNat (n : Count) : (countLow n).toNat = n.toNat % 256 := by
  rw [countLow, BitVec.extractLsb'_toNat]
  rfl

/-- R63: LEN_HI and the trigger's byte of a size make that size. -/
theorem transferCount_of_parts {hi lo : Byte} {size : Nat} (hhi : hi.toNat = size / 256) (hlo : lo.toNat = size % 256) :
    (transferCount hi lo).toNat = size := by
  rw [transferCount_toNat, hhi, hlo]
  omega

/-! ## What one step of a transfer comes to -/

/-- A transfer's step leaves the wire to the engine, and goes on, returns, or gives up (R281). `Goes` and `Returns` say
what it has then done to the device. -/
inductive State.Transfers (s t : State) (Goes : Device → AppState → Prop) (Returns : Device → Result → Prop) : Prop
  | goes (hgo : Goes t.dev t.host.app) (hcfg : t.cfg = s.cfg) (hwire : t.wire = s.wire)
  | returns (hret : Returns t.dev t.host.result) (happ : t.host.app = .idle) (hcfg : t.cfg = s.cfg)
      (hwire : t.wire = s.wire)
  | givesUp (hbound : s.cfg.retryBound ≠ none) (happ : t.host.app = .idle) (n : Nat)
      (hresult : t.host.result = .incomplete n)

/-- A poll without progress goes on where the transfer would, with one poll more counted. -/
theorem State.Transfers.of_pollAgain {Goes : Device → AppState → Prop} {Returns : Device → Result → Prop}
    {polls copied : Nat} {again : Nat → AppState} (h : pollAgain u polls copied again = .next t)
    (hcfg : u.cfg = s.cfg) (hwire : u.wire = s.wire) (hgo : Goes u.dev (again (polls + 1))) :
    s.Transfers t Goes Returns := by
  rcases pollAgain_bounded h with rfl | ⟨hbound, rfl⟩
  · exact .goes hgo hcfg hwire
  · exact .givesUp (hcfg ▸ hbound) rfl _ rfl

theorem State.Transfers.of_goto {Goes : Device → AppState → Prop} {Returns : Device → Result → Prop}
    (h : (Host.Outcome.next (u.goto a) : Out) = .next t) (hcfg : u.cfg = s.cfg) (hwire : u.wire = s.wire)
    (hgo : Goes u.dev a) : s.Transfers t Goes Returns := by
  cases h
  exact .goes hgo hcfg hwire

theorem State.Transfers.of_finish {Goes : Device → AppState → Prop} {Returns : Device → Result → Prop} {r : Result}
    (h : (Host.Outcome.next (u.finish r) : Out) = .next t) (hcfg : u.cfg = s.cfg) (hwire : u.wire = s.wire)
    (hret : Returns u.dev r) : s.Transfers t Goes Returns := by
  cases h
  exact .returns hret rfl hcfg hwire

end Sys2Proof.Machine
end

section
/-! The bulk transfers' mirrored cursors (O33): what one step of `spi_read` and of `spi_write` does (R150, R152), that
every step keeps the mirrors, and that no copy underflows and no push overflows. -/

namespace Sys2Proof

namespace Machine

variable {cfg : Params} {d d' : Device} {w w' : List Exchange} {s t u : State} {i : Instr} {x : Refusal}

/-! ## One step of `spi_read` (R150) -/

/-- `spi_read` at `pc` goes on at `pc'`, its locals and the device having changed. -/
inductive ReadVars.Move (d : Device) (v : ReadVars) : ReadPc → Device → ReadPc → ReadVars → Prop
  | lenHi (hquiet : d.quiet = true) : Move d v .lenHi { d with lenHi := countHigh v.size } .feed v
  | feed (hquiet : d.quiet = true) :
      Move d v .feed { d with feed := transferCount d.lenHi (countLow v.size) } .head v
  | head (hleft : v.left ≠ 0) : Move d v .head d .poll { v with h := d.rxHead }
  | poll (n : Nat) : Move d v .poll d .poll { v with polls := n }
  | pass (n : Nat) (hn : n = min (occupancy v.h d.rxTail).toNat v.left) (hpos : n ≠ 0) :
      Move d v .poll d .copy { v with n := n, k := n, polls := 0 }
  | copy (b : Byte) (q : List Byte) (hq : d.rxq = b :: q) (hk : v.k - 1 ≠ 0) :
      Move d v .copy (d.popRx q) .copy { v with buf := v.buf ++ [b], k := v.k - 1 }
  | endPass (b : Byte) (q : List Byte) (hq : d.rxq = b :: q) (hk : v.k - 1 = 0) (hleft : v.left - v.n ≠ 0) :
      Move d v .copy (d.popRx q) .poll
        { v with buf := v.buf ++ [b], k := v.k - 1, h := v.h + BitVec.ofNat 8 v.n, left := v.left - v.n }

/-- `spi_read` at `pc` returns the buffer `buf`. -/
inductive ReadVars.Return (d : Device) (v : ReadVars) : ReadPc → Device → List Byte → Prop
  | empty (hleft : v.left = 0) : Return d v .head d v.buf
  | endPass (b : Byte) (q : List Byte) (hq : d.rxq = b :: q) (hk : v.k - 1 = 0) (hleft : v.left - v.n = 0) :
      Return d v .copy (d.popRx q) (v.buf ++ [b])

theorem spiReadStep_driving {pc : ReadPc} {v : ReadVars} (ha : s.Attached) (hp : s.env.boardPresent = true)
    (h : spiReadStep pc v s = .next t) : s.Driving := by
  cases pc with simp only [spiReadStep] at h
  | lenHi | feed => exact driving_of_wr ha hp h nofun
  | head | poll | copy => exact driving_of_rd ha hp h nofun

/-- What one step of `spi_read` comes to. -/
theorem spiReadStep_transfers {pc : ReadPc} {v : ReadVars} (ha : s.Attached) (hp : s.env.boardPresent = true)
    (h : spiReadStep pc v s = .next t) :
    s.Transfers t (fun d' a => ∃ pc' v', a = .spiRead pc' v' ∧ v.Move s.dev pc d' pc' v')
      (fun d' r => ∃ buf, r = .bytes buf ∧ v.Return s.dev pc d' buf) := by
  have hdrive := spiReadStep_driving ha hp h
  cases pc with simp only [spiReadStep] at h
  | lenHi =>
    rw [wr_wrLenHi hdrive] at h
    split at h
    · exact .of_goto h rfl rfl ⟨_, _, rfl, .lenHi ‹_›⟩
    · cases h
  | feed =>
    rw [wr_wrTxFeed hdrive] at h
    split at h
    · exact .of_goto h rfl rfl ⟨_, _, rfl, .feed ‹_›⟩
    · cases h
  | head =>
    rw [rd_rdRxHead hdrive] at h
    split at h
    · exact .of_finish h rfl rfl ⟨_, rfl, .empty ‹_›⟩
    · exact .of_goto h rfl rfl ⟨_, _, rfl, .head ‹_›⟩
  | poll =>
    rw [rd_rdRxTail hdrive] at h
    split at h
    · exact .of_pollAgain h rfl rfl ⟨_, _, rfl, .poll _⟩
    · exact .of_goto h rfl rfl ⟨_, _, rfl, .pass _ rfl ‹_›⟩
  | copy =>
    cases hq : s.dev.rxq with
    | nil => rw [rd_rdFifoData_nil hdrive hq] at h; cases h
    | cons b q =>
      rw [rd_rdFifoData_cons hdrive hq] at h
      split at h
      · split at h
        · exact .of_finish h rfl rfl ⟨_, rfl, .endPass b q hq ‹_› ‹_›⟩
        · exact .of_goto h rfl rfl ⟨_, _, rfl, .endPass b q hq ‹_› ‹_›⟩
      · exact .of_goto h rfl rfl ⟨_, _, rfl, .copy b q hq ‹_›⟩

/-! ## One step of `spi_write` (R152) -/

/-- Where `spi_write` goes on when a pass, or the first read of TX_TAIL, has left `rest` to push. -/
def WritePc.after (rest : List Byte) : WritePc := if rest.isEmpty then .status else .poll

/-- `spi_write` at `pc` goes on at `pc'`, its locals and the device having changed. -/
inductive WriteVars.Move (cfg : Params) (d : Device) (v : WriteVars) : WritePc → Device → WritePc → WriteVars → Prop
  | lenHi (hquiet : d.quiet = true) : Move cfg d v .lenHi { d with lenHi := countHigh v.size } .discard v
  | discard (hquiet : d.quiet = true) :
      Move cfg d v .discard { d with discard := transferCount d.lenHi (countLow v.size) } .tail v
  | tail : Move cfg d v .tail d (.after v.rest) { v with t := d.txTail }
  | poll (n : Nat) : Move cfg d v .poll d .poll { v with polls := n }
  | pass (n : Nat) (hn : n = min (txFree cfg v.t d.txHead) v.rest.length) (hpos : n ≠ 0) :
      Move cfg d v .poll d .push { v with n := n, k := n, polls := 0 }
  | push (hroom : d.txq.length < cfg.fifoDepth) (hk : v.k - 1 ≠ 0) :
      Move cfg d v .push (d.pushTx (v.rest.headD 0)) .push { v with rest := v.rest.tail, k := v.k - 1 }
  | endPass (hroom : d.txq.length < cfg.fifoDepth) (hk : v.k - 1 = 0) :
      Move cfg d v .push (d.pushTx (v.rest.headD 0)) (.after v.rest.tail)
        { v with rest := v.rest.tail, k := v.k - 1, t := v.t + BitVec.ofNat 8 v.n }
  | status (n : Nat) : Move cfg d v .status d .status { v with polls := n }

theorem spiWriteStep_driving {pc : WritePc} {v : WriteVars} (ha : s.Attached) (hp : s.env.boardPresent = true)
    (h : spiWriteStep pc v s = .next t) : s.Driving := by
  cases pc with simp only [spiWriteStep] at h
  | lenHi | discard | push => exact driving_of_wr ha hp h nofun
  | tail | poll | status => exact driving_of_rd ha hp h nofun

/-- What the return of a write procedure at `a` comes to: its completion poll has found DISCARD = 0 (R152, R153,
R280). -/
structure Device.WriteReturn (d : Device) (a : AppState) (d' : Device) (r : Result) : Prop where
  status : ∃ size rest, a.writing = some (.status, size, rest)
  discard : d.discard = 0
  dev : d' = d
  result : r = .done

/-- What one step of `spi_write` comes to. -/
theorem spiWriteStep_transfers {pc : WritePc} {v : WriteVars} (ha : s.Attached) (hp : s.env.boardPresent = true)
    (h : spiWriteStep pc v s = .next t) :
    s.Transfers t (fun d' a => ∃ pc' v', a = .spiWrite pc' v' ∧ v.Move s.cfg s.dev pc d' pc' v')
      (s.dev.WriteReturn (.spiWrite pc v)) := by
  have hdrive := spiWriteStep_driving ha hp h
  cases pc with simp only [spiWriteStep] at h
  | lenHi =>
    rw [wr_wrLenHi hdrive] at h
    split at h
    · exact .of_goto h rfl rfl ⟨_, _, rfl, .lenHi ‹_›⟩
    · cases h
  | discard =>
    rw [wr_wrRxDiscard hdrive] at h
    split at h
    · exact .of_goto h rfl rfl ⟨_, _, rfl, .discard ‹_›⟩
    · cases h
  | tail =>
    rw [rd_rdTxTail hdrive] at h
    exact .of_goto h rfl rfl ⟨_, _, rfl, .tail⟩
  | poll =>
    rw [rd_rdTxHead hdrive] at h
    split at h
    · exact .of_pollAgain h rfl rfl ⟨_, _, rfl, .poll _⟩
    · exact .of_goto h rfl rfl ⟨_, _, rfl, .pass _ rfl ‹_›⟩
  | push =>
    rw [wr_wrFifoData hdrive] at h
    split at h
    · split at h
      · exact .of_goto h rfl rfl ⟨_, _, rfl, .endPass ‹_› ‹_›⟩
      · exact .of_goto h rfl rfl ⟨_, _, rfl, .push ‹_› ‹_›⟩
    · cases h
  | status =>
    rw [rd_rdStatus hdrive] at h
    split at h
    · next hempty =>
      exact .of_finish h rfl rfl ⟨⟨_, _, rfl⟩, (rxDiscardEmpty_statusByte ha.params _ _).mp hempty, rfl, rfl⟩
    · exact .of_pollAgain h rfl rfl ⟨_, _, rfl, .status _⟩

/-! ## The mirrors, state by state -/

theorem readMirror_of_offPass (h : t.host.app.inPass = false) : t.ReadMirror := by
  unfold State.ReadMirror
  split
  · next heq => rw [heq] at h; cases h
  · next heq => rw [heq] at h; cases h
  · trivial

theorem writeMirror_of_offPass (h : t.host.app.inPass = false) : t.WriteMirror := by
  unfold State.WriteMirror
  split
  · next heq => rw [heq] at h; cases h
  · next heq => rw [heq] at h; cases h
  · trivial

theorem offPass_of_idle (h : t.host.app = .idle) : t.host.app.inPass = false := by
  rw [h]; rfl

theorem readMirror_of_spiWrite {pc : WritePc} {v : WriteVars} (h : t.host.app = .spiWrite pc v) : t.ReadMirror := by
  rw [State.ReadMirror, h]; trivial

theorem writeMirror_of_spiRead {pc : ReadPc} {v : ReadVars} (h : t.host.app = .spiRead pc v) : t.WriteMirror := by
  rw [State.WriteMirror, h]; trivial

theorem readMirror_poll {v : ReadVars} (h : s.host.app = .spiRead .poll v) : s.ReadMirror ↔ v.h = s.dev.rxHead := by
  rw [State.ReadMirror, h]

theorem readMirror_copy {v : ReadVars} (h : s.host.app = .spiRead .copy v) :
    s.ReadMirror ↔ 1 ≤ v.k ∧ v.k ≤ v.n ∧ v.n ≤ v.left ∧ s.dev.rxHead = v.h + BitVec.ofNat 8 (v.n - v.k) ∧
      v.k ≤ s.dev.rxq.length := by
  rw [State.ReadMirror, h]

theorem writeMirror_poll {v : WriteVars} (h : s.host.app = .spiWrite .poll v) :
    s.WriteMirror ↔ v.t = s.dev.txTail := by
  rw [State.WriteMirror, h]

theorem writeMirror_push {v : WriteVars} (h : s.host.app = .spiWrite .push v) :
    s.WriteMirror ↔ 1 ≤ v.k ∧ v.k ≤ v.n ∧ v.k ≤ v.rest.length ∧ s.dev.txTail = v.t + BitVec.ofNat 8 (v.n - v.k) ∧
      s.dev.txq.length + v.k ≤ s.cfg.fifoDepth := by
  rw [State.WriteMirror, h]

/-- After a pass or before the first, the mirrored tail need only be TX_TAIL. -/
theorem writeMirror_after {rest : List Byte} {v : WriteVars} (h : t.host.app = .spiWrite (.after rest) v)
    (ht : v.t = t.dev.txTail) : t.WriteMirror := by
  unfold WritePc.after at h
  split at h
  · exact writeMirror_of_offPass (by rw [h]; rfl)
  · exact (writeMirror_poll h).mpr ht

/-! ## Steps of the other agents -/

/-- R140, R141, R177, R200: the engine's steps take from the transmit FIFO and add to the receive FIFO, and move neither
of the host's two cursors. -/
theorem Device.EngineStep.fifos (h : d.EngineStep cfg w d' w') :
    d'.rxHead = d.rxHead ∧ d.rxq.length ≤ d'.rxq.length ∧ d'.txTail = d.txTail ∧ d'.txq.length ≤ d.txq.length := by
  cases h with
  | launch _ =>
    rcases d.launch_cases cfg with ⟨b, q, hq, he⟩ | ⟨-, he⟩
    · rw [he]; exact ⟨rfl, le_rfl, rfl, by simp [hq]⟩
    · rw [he]; exact ⟨rfl, le_rfl, rfl, le_rfl⟩
  | complete r _ =>
    rcases d.complete_cases r with ⟨-, he⟩ | ⟨-, he⟩
    · rw [he]; exact ⟨rfl, by simp, rfl, le_rfl⟩
    · rw [he]; exact ⟨rfl, le_rfl, rfl, le_rfl⟩
  | apart => exact ⟨rfl, le_rfl, rfl, le_rfl⟩

theorem State.Beside.readMirror (h : s.Beside t) (hm : s.ReadMirror) : t.ReadMirror := by
  obtain ⟨hhead, hlen, -, -⟩ := h.engine.fifos
  unfold State.ReadMirror at hm ⊢
  rw [h.app]
  split
  · next v heq => rw [heq] at hm; exact hm.trans hhead.symm
  · next v heq =>
    rw [heq] at hm
    obtain ⟨h1, hkn, hnl, hcursor, hk⟩ := hm
    exact ⟨h1, hkn, hnl, hhead.trans hcursor, hk.trans hlen⟩
  · trivial

theorem State.Beside.writeMirror (h : s.Beside t) (hm : s.WriteMirror) : t.WriteMirror := by
  obtain ⟨-, -, htail, hlen⟩ := h.engine.fifos
  unfold State.WriteMirror at hm ⊢
  rw [h.app, h.cfg]
  split
  · next v heq => rw [heq] at hm; exact hm.trans htail.symm
  · next v heq =>
    rw [heq] at hm
    obtain ⟨h1, hkn, hkr, hcursor, hroom⟩ := hm
    exact ⟨h1, hkn, hkr, htail.trans hcursor, (Nat.add_le_add_right hlen _).trans hroom⟩
  · trivial

/-! ## The transfers' own steps -/

/-- A cursor one further on is one place less behind its mirror. -/
theorem cursor_advance {c : Byte} {n k : Nat} (hk : 1 ≤ k) (hkn : k ≤ n) :
    c + BitVec.ofNat 8 (n - k) + 1 = c + BitVec.ofNat 8 (n - (k - 1)) := by
  have hstep : n - (k - 1) = n - k + 1 := by omega
  rw [hstep, BitVec.ofNat_add, add_assoc]
  rfl

/-- R150: `spi_read` keeps its mirrored head on RX_HEAD; a pass is no longer than the receive FIFO, whose occupancy the
cursors show (R37). -/
theorem ReadVars.Move.readMirror {pc pc' : ReadPc} {v v' : ReadVars} (hrx : s.dev.rxInv s.cfg)
    (happ : s.host.app = .spiRead pc v) (hm : s.ReadMirror) (happ' : t.host.app = .spiRead pc' v')
    (h : v.Move s.dev pc t.dev pc' v') : t.ReadMirror := by
  generalize hd : t.dev = d' at h
  cases h with
  | lenHi | feed => exact readMirror_of_offPass (by rw [happ']; rfl)
  | head _ => rw [readMirror_poll happ', hd]
  | poll n => rw [readMirror_poll happ', hd]; exact (readMirror_poll happ).mp hm
  | pass n hn hpos =>
    have hhead : v.h = s.dev.rxHead := (readMirror_poll happ).mp hm
    obtain ⟨hocc, -⟩ := hrx
    rw [hhead, hocc] at hn
    rw [readMirror_copy happ', hd]
    refine ⟨Nat.one_le_iff_ne_zero.mpr hpos, le_rfl, hn ▸ min_le_right _ _, ?_, hn ▸ min_le_left _ _⟩
    rw [Nat.sub_self, BitVec.add_zero, hhead]
  | copy b q hq hk =>
    obtain ⟨h1, hkn, hnl, hcursor, hlen⟩ := (readMirror_copy happ).mp hm
    rw [hq, List.length_cons] at hlen
    rw [readMirror_copy happ', hd]
    refine ⟨Nat.one_le_iff_ne_zero.mpr hk, (Nat.sub_le _ _).trans hkn, hnl, ?_, Nat.sub_le_iff_le_add.mpr hlen⟩
    rw [Device.popRx_rxHead, hcursor, cursor_advance h1 hkn]
  | endPass b q hq hk _ =>
    obtain ⟨h1, hkn, -, hcursor, -⟩ := (readMirror_copy happ).mp hm
    rw [readMirror_poll happ', hd, Device.popRx_rxHead, hcursor, cursor_advance h1 hkn, hk, Nat.sub_zero]

/-- R152: `spi_write` keeps its mirrored tail on TX_TAIL; a pass is no longer than the transmit FIFO's free space, which
the cursors show (R37). -/
theorem WriteVars.Move.writeMirror {pc pc' : WritePc} {v v' : WriteVars} (htx : s.dev.txInv s.cfg)
    (happ : s.host.app = .spiWrite pc v) (hm : s.WriteMirror) (happ' : t.host.app = .spiWrite pc' v')
    (hcfg : t.cfg = s.cfg) (h : v.Move s.cfg s.dev pc t.dev pc' v') : t.WriteMirror := by
  generalize hd : t.dev = d' at h
  cases h with
  | lenHi | discard | status => exact writeMirror_of_offPass (by rw [happ']; rfl)
  | tail => exact writeMirror_after happ' (congrArg Device.txTail hd.symm)
  | poll n => rw [writeMirror_poll happ', hd]; exact (writeMirror_poll happ).mp hm
  | pass n hn hpos =>
    have htail : v.t = s.dev.txTail := (writeMirror_poll happ).mp hm
    obtain ⟨hocc, hdepth⟩ := htx
    rw [txFree, htail, hocc] at hn
    rw [writeMirror_push happ', hd, hcfg]
    refine ⟨Nat.one_le_iff_ne_zero.mpr hpos, le_rfl, hn ▸ min_le_right _ _, ?_, ?_⟩
    · rw [Nat.sub_self, BitVec.add_zero, htail]
    · have hfree : n ≤ s.cfg.fifoDepth - s.dev.txq.length := hn ▸ min_le_left _ _
      show s.dev.txq.length + n ≤ s.cfg.fifoDepth
      omega
  | push _ hk =>
    obtain ⟨h1, hkn, hkr, hcursor, hroom⟩ := (writeMirror_push happ).mp hm
    rw [writeMirror_push happ', hd, hcfg]
    refine ⟨Nat.one_le_iff_ne_zero.mpr hk, (Nat.sub_le _ _).trans hkn, ?_, ?_, ?_⟩
    · rw [List.length_tail]; exact Nat.sub_le_sub_right hkr 1
    · rw [Device.pushTx_txTail, hcursor, cursor_advance h1 hkn]
    · simp only [Device.pushTx_txq, List.length_append, List.length_singleton]; omega
  | endPass _ hk =>
    obtain ⟨h1, hkn, -, hcursor, -⟩ := (writeMirror_push happ).mp hm
    refine writeMirror_after happ' ?_
    rw [hd, Device.pushTx_txTail, hcursor, cursor_advance h1 hkn, hk, Nat.sub_zero]

theorem procStep_readMirror (hi : s.Inv) (ha : s.Attached) (hp : s.env.boardPresent = true) (hm : s.ReadMirror)
    (h : procStep s = .next t) : t.ReadMirror := by
  by_cases hread : ∃ pc v, s.host.app = .spiRead pc v
  · obtain ⟨pc, v, happ⟩ := hread
    rw [procStep, happ] at h
    cases spiReadStep_transfers ha hp h with
    | goes hgo _ _ => obtain ⟨pc', v', happ', hmove⟩ := hgo; exact hmove.readMirror hi.device.rx happ hm happ'
    | returns _ happ' _ _ => exact readMirror_of_offPass (offPass_of_idle happ')
    | givesUp _ happ' _ _ => exact readMirror_of_offPass (offPass_of_idle happ')
  · by_cases hwrite : ∃ pc v, s.host.app = .spiWrite pc v
    · obtain ⟨pc, v, happ⟩ := hwrite
      rw [procStep, happ] at h
      cases spiWriteStep_transfers ha hp h with
      | goes hgo _ _ => obtain ⟨pc', v', happ', -⟩ := hgo; exact readMirror_of_spiWrite happ'
      | returns _ happ' _ _ => exact readMirror_of_offPass (offPass_of_idle happ')
      | givesUp _ happ' _ _ => exact readMirror_of_offPass (offPass_of_idle happ')
    · exact readMirror_of_offPass
        (offPass_procStep (fun pc v e => hread ⟨pc, v, e⟩) (fun pc v e => hwrite ⟨pc, v, e⟩) t h)

theorem procStep_writeMirror (hi : s.Inv) (ha : s.Attached) (hp : s.env.boardPresent = true) (hm : s.WriteMirror)
    (h : procStep s = .next t) : t.WriteMirror := by
  by_cases hwrite : ∃ pc v, s.host.app = .spiWrite pc v
  · obtain ⟨pc, v, happ⟩ := hwrite
    rw [procStep, happ] at h
    cases spiWriteStep_transfers ha hp h with
    | goes hgo hcfg _ =>
      obtain ⟨pc', v', happ', hmove⟩ := hgo
      exact hmove.writeMirror hi.device.tx happ hm happ' hcfg
    | returns _ happ' _ _ => exact writeMirror_of_offPass (offPass_of_idle happ')
    | givesUp _ happ' _ _ => exact writeMirror_of_offPass (offPass_of_idle happ')
  · by_cases hread : ∃ pc v, s.host.app = .spiRead pc v
    · obtain ⟨pc, v, happ⟩ := hread
      rw [procStep, happ] at h
      cases spiReadStep_transfers ha hp h with
      | goes hgo _ _ => obtain ⟨pc', v', happ', -⟩ := hgo; exact writeMirror_of_spiRead happ'
      | returns _ happ' _ _ => exact writeMirror_of_offPass (offPass_of_idle happ')
      | givesUp _ happ' _ _ => exact writeMirror_of_offPass (offPass_of_idle happ')
    · exact writeMirror_of_offPass
        (offPass_procStep (fun pc v e => hread ⟨pc, v, e⟩) (fun pc v e => hwrite ⟨pc, v, e⟩) t h)

/-! ## Underflow and overflow (R128, R129) -/

/-- A refusal as underflow or overflow is that of a queue that is empty or full. -/
structure State.FifoRefusal (s : State) (x : Refusal) : Prop where
  underflow : x = .rxUnderflow → s.dev.rxq = []
  overflow : x = .txOverflow → s.cfg.fifoDepth ≤ s.dev.txq.length

theorem readAccess_refused {k : State → Out} (h : readAccess s k = .refused x) : k s = .refused x := by
  unfold readAccess at h
  split at h
  · exact h
  · cases h

theorem writeAccess_refused {k : State → Out} (h : writeAccess s k = .refused x) : k s = .refused x := by
  unfold writeAccess at h
  split at h
  · exact h
  · cases h

theorem plainRead_ne_refused (f : Device → Byte) : plainRead s f ≠ .refused x := fun h => by
  cases readAccess_refused h

theorem drawnRead_ne_refused (f : Params → Device → Byte → Byte) : drawnRead s f ≠ .refused x := fun h => by
  cases readAccess_refused h

theorem plainWrite_ne_refused (f : Device → Device) : plainWrite s f ≠ .refused x := fun h => by
  cases writeAccess_refused h

theorem quietWrite_refused {r : Refusal} {f : Device → Device} (h : quietWrite s r f = .refused x) : x = r := by
  have h := writeAccess_refused h
  split at h
  · cases h
  · exact (Host.Outcome.refused.inj h).symm

theorem refusedRead_refused {r : Refusal} (h : refusedRead s r = .refused x) : x = r :=
  (Host.Outcome.refused.inj (readAccess_refused h)).symm

theorem refusedWrite_refused {r : Refusal} (h : refusedWrite s r = .refused x) : x = r :=
  (Host.Outcome.refused.inj (writeAccess_refused h)).symm

/-- A refusal of some other name says nothing of the queues. -/
theorem State.FifoRefusal.other {r : Refusal} (h : x = r) (hu : r ≠ .rxUnderflow) (ho : r ≠ .txOverflow) :
    s.FifoRefusal x :=
  ⟨fun e => absurd (h.symm.trans e) hu, fun e => absurd (h.symm.trans e) ho⟩

theorem execRdFifoData_refused (h : execRdFifoData s = .refused x) : s.FifoRefusal x := by
  have h := readAccess_refused h
  split at h
  · cases h
  · next hq => cases h; exact ⟨fun _ => hq, nofun⟩

theorem execWrFifoData_refused {b : Byte} (h : execWrFifoData b s = .refused x) : s.FifoRefusal x := by
  have h := writeAccess_refused h
  split at h
  · cases h
  · next hfull => cases h; exact ⟨nofun, fun _ => not_lt.mp hfull⟩

theorem execWrIntArmed_refused {b : Byte} (h : execWrIntArmed b s = .refused x) : x = .armedValueReserved := by
  have h := writeAccess_refused h
  split at h
  · cases h
  · exact (Host.Outcome.refused.inj h).symm

/-- Of all the operations only the data port's are refused for a FIFO's sake. -/
theorem exec_refused (h : exec i s = .refused x) : s.FifoRefusal x := by
  cases i with
  | rdFifoData => exact execRdFifoData_refused h
  | wrFifoData b => exact execWrFifoData_refused h
  | rdStatus | rdGpio => exact absurd h (drawnRead_ne_refused _)
  | rdRxHead | rdRxTail | rdTxHead | rdTxTail | rdIntFired => exact absurd h (plainRead_ne_refused _)
  | rdIdent => rw [exec_rdIdent] at h; cases readAccess_refused h
  | wrIntFired b => rw [exec, execWrIntFired] at h; exact absurd h (plainWrite_ne_refused _)
  | wrLenHi b => rw [exec_wrLenHi] at h; exact .other (quietWrite_refused h) nofun nofun
  | wrSpiFreq b => rw [exec_wrSpiFreq] at h; exact .other (quietWrite_refused h) nofun nofun
  | wrSs b => rw [exec_wrSs] at h; exact .other (quietWrite_refused h) nofun nofun
  | wrRxDiscard b => rw [exec_wrRxDiscard] at h; exact .other (quietWrite_refused h) nofun nofun
  | wrTxFeed b => rw [exec_wrTxFeed] at h; exact .other (quietWrite_refused h) nofun nofun
  | wrIntArmed b => exact .other (execWrIntArmed_refused h) nofun nofun
  | rdLenHi | rdRxDiscard | rdTxFeed | rdSpiFreq | rdSs | rdIntArmed | rdReserved =>
    exact .other (refusedRead_refused h) nofun nofun
  | wrStatus b | wrGpio b | wrRxHead b | wrRxTail b | wrTxHead b | wrTxTail b | wrIdent b | wrReserved b =>
    exact .other (refusedWrite_refused h) nofun nofun
  | rdTickHi | rdTickMid | rdTickLo => cases h
  | wrTickHi b | wrTickMid b | wrTickLo b => cases h; exact .other rfl nofun nofun

theorem rejected_refused {e : DecodeError} {write : Bool} (h : rejected e write s = .refused x) : s.FifoRefusal x := by
  cases e with
  | unmappedOffset =>
    cases write with
    | false => exact .other (refusedRead_refused h) nofun nofun
    | true => exact .other (refusedWrite_refused h) nofun nofun
  | unusedTick | badWidth => cases h; exact .other rfl nofun nofun
  | notThisBlock => cases write <;> cases h

theorem hostAccess_refused {base : Addr} (h : hostAccess base i s = .refused x) : s.FifoRefusal x := by
  unfold hostAccess runAccess at h
  split at h
  · unfold runCycle at h
    split at h
    · exact exec_refused h
    · exact rejected_refused h
  · exact rejected_refused h

theorem lineBar_refused (h : s.lineBar i = some x) : s.FifoRefusal x := by
  unfold State.lineBar State.earlyBar at h
  split at h
  · next hbar =>
    split at hbar
    · split at hbar <;> cases hbar
      cases h; exact .other rfl nofun nofun
    · cases hbar; cases h; exact .other rfl nofun nofun
  · split at h <;> cases h
    exact .other rfl nofun nofun

theorem andThen_refused {o : Out} {k : State → Out} (h : andThen o k = .refused x) :
    o = .refused x ∨ ∃ u, k u = .refused x := by
  cases o with
  | next u => exact .inr ⟨u, h⟩
  | fault f => cases h
  | refused r => exact .inl h

theorem appIssue_refused (h : appIssue i s (hostAccess s.host.base i) = .refused x) : s.FifoRefusal x := by
  unfold appIssue at h
  split at h
  · next hbar => cases h; exact lineBar_refused hbar
  · rcases andThen_refused h with h | ⟨u, h⟩
    · exact hostAccess_refused h
    · cases h

/-- A copy that is refused is refused by its transaction: the rest of the step has no refusal. -/
theorem spiReadStep_copy_refused {v : ReadVars} (h : spiReadStep .copy v s = .refused x) : s.FifoRefusal x := by
  simp only [spiReadStep] at h
  rcases andThen_refused h with h | ⟨u, h⟩
  · exact appIssue_refused h
  · split at h
    · split at h <;> cases h
    · cases h

theorem spiWriteStep_push_refused {v : WriteVars} (h : spiWriteStep .push v s = .refused x) : s.FifoRefusal x := by
  simp only [spiWriteStep] at h
  rcases andThen_refused h with h | ⟨u, h⟩
  · exact appIssue_refused h
  · split at h <;> cases h

/-- The head of the agenda is the application context's step, which is refused. -/
theorem step_appStep_refused {rest : List Event} (hagenda : s.agenda = .appStep :: rest) (h : step s = .refused x)
    (hx : x ≠ .notEnabled .appStep) : procStep { s with agenda := rest } = .refused x := by
  rw [step_of_agenda hagenda, runEvent, appStep] at h
  split at h
  · cases h; exact absurd rfl hx
  · exact h

end Machine

open Machine

/-- Settles O33: the mirrors are kept by every kind of step (`step_split`), the pass being as long as the cursors' own
invariant (R37) says the queue or its free space is; a pass that has begun leaves its copies bytes and its pushes room. -/
theorem mirroredCursorsFollowTheHardware : Obligations.MirroredCursorsFollowTheHardware := by
  refine ⟨fun s t hi ha hp hm h => ?_, fun s t hi ha hp hm h => ?_, fun s v rest hagenda hm happ h => ?_,
    fun s v rest hagenda hm happ h => ?_⟩
  · rcases step_split ha h with ⟨agenda, draws, -, hproc⟩ | hfree | hbeside
    · exact procStep_readMirror (s := { s with agenda := agenda, draws := draws }) ⟨hi.params, hi.device⟩
        ⟨ha.params, ha.base, ha.context⟩ hp hm hproc
    · exact readMirror_of_offPass hfree.offPass
    · exact hbeside.readMirror hm
  · rcases step_split ha h with ⟨agenda, draws, -, hproc⟩ | hfree | hbeside
    · exact procStep_writeMirror (s := { s with agenda := agenda, draws := draws }) ⟨hi.params, hi.device⟩
        ⟨ha.params, ha.base, ha.context⟩ hp hm hproc
    · exact writeMirror_of_offPass hfree.offPass
    · exact hbeside.writeMirror hm
  · have hproc := step_appStep_refused hagenda h nofun
    rw [procStep, show ({ s with agenda := rest } : State).host.app = .spiRead .copy v from happ] at hproc
    have hempty : s.dev.rxq = [] := (spiReadStep_copy_refused hproc).underflow rfl
    obtain ⟨h1, -, -, -, hlen⟩ := (readMirror_copy happ).mp hm
    rw [hempty, List.length_nil] at hlen
    omega
  · have hproc := step_appStep_refused hagenda h nofun
    rw [procStep, show ({ s with agenda := rest } : State).host.app = .spiWrite .push v from happ] at hproc
    have hfull : s.cfg.fifoDepth ≤ s.dev.txq.length := (spiWriteStep_push_refused hproc).overflow rfl
    obtain ⟨h1, -, -, -, hroom⟩ := (writeMirror_push happ).mp hm
    omega

end Sys2Proof
end

section
/-! The write procedures (O31, O32): `spi_write` and `spi_write1` make the same moves (`Device.WriteMove`), each of which,
like each step of the engine, keeps what has been sent, is unsent and is still to push equal to the buffer. -/

namespace Sys2Proof

namespace Machine

variable {cfg : Params} {d d' : Device} {w w' : List Exchange} {s t : State} {base kept buf rest rest' : List Byte}
  {pc pc' : WritePc} {b r : Byte} {es : List Event}

/-! ## The moves of a write procedure (R152, R153) -/

/-- The write procedure has declared its size in DISCARD. -/
def WritePc.declared : WritePc → Bool
  | .lenHi | .discard => false
  | .tail | .poll | .push | .status => true

/-- A step of a write procedure of `size` bytes, at `pc` with `rest` still to push: declare the size, high byte first;
poll; or push one byte. The completion poll comes when all are pushed. -/
inductive Device.WriteMove (d : Device) (size : Nat) : WritePc → List Byte → Device → WritePc → List Byte → Prop
  | lenHi (hquiet : d.quiet = true) (x : Byte) (hx : x.toNat = size / 256) (rest : List Byte) :
      WriteMove d size .lenHi rest { d with lenHi := x } .discard rest
  | discard (hquiet : d.quiet = true) (x : Byte) (hx : x.toNat = size % 256) (rest : List Byte) :
      WriteMove d size .discard rest { d with discard := transferCount d.lenHi x } .tail rest
  | poll {pc pc' : WritePc} (hpc : pc.declared = true) (hpc' : pc'.declared = true) (rest : List Byte)
      (hlast : pc' = .status → pc = .status ∨ rest = []) : WriteMove d size pc rest d pc' rest
  | push (b : Byte) (rest : List Byte) {pc' : WritePc} (hpc' : pc'.declared = true)
      (hlast : pc' = .status → rest = []) : WriteMove d size .push (b :: rest) (d.pushTx b) pc' rest

/-- A write procedure at `a` goes on at `a'`. -/
def Device.GoesWriting (d : Device) (a : AppState) (d' : Device) (a' : AppState) : Prop :=
  ∃ pc size rest pc' rest', a.writing = some (pc, size, rest) ∧ a'.writing = some (pc', size, rest') ∧
    d.WriteMove size pc rest d' pc' rest'

theorem WritePc.after_declared (rest : List Byte) : (WritePc.after rest).declared = true := by
  unfold WritePc.after
  split <;> rfl

theorem WritePc.eq_nil_of_after (h : WritePc.after rest = .status) : rest = [] := by
  unfold WritePc.after at h
  split at h
  · exact List.isEmpty_iff.mp ‹_›
  · cases h

/-- `spi_write`'s steps are these moves, as long as it pushes only while there is a byte to push. -/
theorem WriteVars.Move.goesWriting {v v' : WriteVars} (hrest : pc = .push → v.rest ≠ [])
    (h : v.Move cfg d pc d' pc' v') : d.GoesWriting (.spiWrite pc v) d' (.spiWrite pc' v') := by
  cases h with
  | lenHi hquiet => exact ⟨_, _, _, _, _, rfl, rfl, .lenHi hquiet _ (countHigh_toNat v.size) _⟩
  | discard hquiet => exact ⟨_, _, _, _, _, rfl, rfl, .discard hquiet _ (countLow_toNat v.size) _⟩
  | tail =>
    exact ⟨_, _, _, _, _, rfl, rfl,
      .poll rfl (WritePc.after_declared _) _ fun hs => .inr (WritePc.eq_nil_of_after hs)⟩
  | poll n => exact ⟨_, _, _, _, _, rfl, rfl, .poll rfl rfl _ nofun⟩
  | pass n _ _ => exact ⟨_, _, _, _, _, rfl, rfl, .poll rfl rfl _ nofun⟩
  | status n => exact ⟨_, _, _, _, _, rfl, rfl, .poll rfl rfl _ .inl⟩
  | push _ _ =>
    obtain ⟨b, rest, hb⟩ := List.exists_cons_of_ne_nil (hrest rfl)
    refine ⟨.push, v.size.toNat, b :: rest, .push, rest, ?_, ?_, ?_⟩
    · rw [AppState.writing, hb]
    · simp only [AppState.writing, hb, List.tail_cons]
    · rw [hb]; exact .push b rest rfl nofun
  | endPass _ _ =>
    obtain ⟨b, rest, hb⟩ := List.exists_cons_of_ne_nil (hrest rfl)
    refine ⟨.push, v.size.toNat, b :: rest, .after rest, rest, ?_, ?_, ?_⟩
    · rw [AppState.writing, hb]
    · simp only [AppState.writing, hb, List.tail_cons]
    · rw [hb]; exact .push b rest (WritePc.after_declared rest) WritePc.eq_nil_of_after

theorem spiWrite1Step_driving {pc : Write1Pc} (ha : s.Attached) (hp : s.env.boardPresent = true)
    (h : spiWrite1Step pc b s = .next t) : s.Driving := by
  cases pc with simp only [spiWrite1Step] at h
  | lenHi | discard | data => exact driving_of_wr ha hp h nofun
  | tail | spin | status => exact driving_of_rd ha hp h nofun

/-- What one step of `spi_write1` comes to (R153). -/
theorem spiWrite1Step_transfers {pc : Write1Pc} (ha : s.Attached) (hp : s.env.boardPresent = true)
    (h : spiWrite1Step pc b s = .next t) :
    s.Transfers t (s.dev.GoesWriting (.spiWrite1 pc b)) (s.dev.WriteReturn (.spiWrite1 pc b)) := by
  have hdrive := spiWrite1Step_driving ha hp h
  cases pc with simp only [spiWrite1Step] at h
  | lenHi =>
    rw [wr_wrLenHi hdrive] at h
    split at h
    · exact .of_goto h rfl rfl ⟨_, _, _, _, _, rfl, rfl, .lenHi ‹_› _ rfl _⟩
    · cases h
  | discard =>
    rw [wr_wrRxDiscard hdrive] at h
    split at h
    · exact .of_goto h rfl rfl ⟨_, _, _, _, _, rfl, rfl, .discard ‹_› _ rfl _⟩
    · cases h
  | tail =>
    rw [rd_rdTxTail hdrive] at h
    exact .of_goto h rfl rfl ⟨_, _, _, _, _, rfl, rfl, .poll rfl rfl _ nofun⟩
  | spin tl polls =>
    rw [rd_rdTxHead hdrive] at h
    split at h
    · exact .of_goto h rfl rfl ⟨_, _, _, _, _, rfl, rfl, .poll rfl rfl _ nofun⟩
    · exact .of_pollAgain h rfl rfl ⟨_, _, _, _, _, rfl, rfl, .poll rfl rfl _ nofun⟩
  | data =>
    rw [wr_wrFifoData hdrive] at h
    split at h
    · exact .of_goto h rfl rfl ⟨_, _, _, _, _, rfl, rfl, .push b [] rfl fun _ => rfl⟩
    · cases h
  | status polls =>
    rw [rd_rdStatus hdrive] at h
    split at h
    · next hempty =>
      exact .of_finish h rfl rfl ⟨⟨_, _, rfl⟩, (rxDiscardEmpty_statusByte ha.params _ _).mp hempty, rfl, rfl⟩
    · exact .of_pollAgain h rfl rfl ⟨_, _, _, _, _, rfl, rfl, .poll rfl rfl _ .inl⟩

/-- What one step of a write procedure comes to. -/
theorem procStep_writing (ha : s.Attached) (hp : s.env.boardPresent = true) (hm : s.WriteMirror)
    (hw : s.host.app.writing ≠ none) (h : procStep s = .next t) :
    s.Transfers t (s.dev.GoesWriting s.host.app) (s.dev.WriteReturn s.host.app) := by
  generalize happ : s.host.app = a at hw
  rw [procStep, happ] at h
  cases a with
  | spiWrite pc v =>
    have hrest : pc = .push → v.rest ≠ [] := by
      rintro rfl hnil
      obtain ⟨h1, -, hkr, -, -⟩ := (writeMirror_push happ).mp hm
      rw [hnil, List.length_nil] at hkr
      omega
    cases spiWriteStep_transfers ha hp h with
    | goes hgo hcfg hwire =>
      obtain ⟨pc', v', happ', hmove⟩ := hgo
      exact .goes (happ' ▸ hmove.goesWriting hrest) hcfg hwire
    | returns hret happ' hcfg hwire => exact .returns hret happ' hcfg hwire
    | givesUp hbound happ' n hresult => exact .givesUp hbound happ' n hresult
  | spiWrite1 pc b => exact spiWrite1Step_transfers ha hp h
  | _ => exact absurd rfl hw

/-! ## What the moves and the engine keep -/

/-- What `State.Writing` says of the device and the wire, with the write procedure at `pc`. -/
structure Device.Writes (base kept buf : List Byte) (pc : WritePc) (rest : List Byte) (d : Device) (w : List Exchange) :
    Prop where
  feed : d.feed = 0
  rxq : d.rxq = kept
  sent : w.map Exchange.tx ++ d.unsent ++ rest = base ++ buf
  start : pc.declared = false → rest = buf ∧ d.unsent = [] ∧ d.discard = 0
  lenHi : pc = .discard → d.lenHi.toNat = buf.length / 256
  count : pc.declared = true → d.discard.toNat = d.unsent.length + rest.length
  last : pc = .status → rest = []

theorem writing_iff : s.Writing base kept buf ↔
    ∃ pc rest, s.host.app.writing = some (pc, buf.length, rest) ∧ s.dev.Writes base kept buf pc rest s.wire := by
  constructor
  · rintro ⟨pc, size, rest, happ, rfl, hfeed, hrxq, hsent, hphase⟩
    refine ⟨pc, rest, happ, hfeed, hrxq, hsent, ?_, ?_, ?_, ?_⟩ <;> cases pc <;> simp_all [WritePc.declared]
  · rintro ⟨pc, rest, happ, hfeed, hrxq, hsent, hstart, hlenHi, hcount, hlast⟩
    refine ⟨pc, _, rest, happ, rfl, hfeed, hrxq, hsent, ?_⟩
    cases pc <;> simp_all [WritePc.declared]

/-- Before the size is declared the engine is quiet. -/
theorem Device.Writes.quiet (h : d.Writes base kept buf pc rest w) (hpc : pc.declared = false) : d.quiet = true := by
  obtain ⟨-, hunsent, hdiscard⟩ := h.start hpc
  obtain ⟨hidle, hq⟩ := d.unsent_eq_nil.mp hunsent
  exact Device.quiet_iff.mpr ⟨h.feed, hdiscard, hq, hidle⟩

/-- R63, R126: LEN_HI and the trigger's byte declare the whole size. -/
theorem Device.Writes.transferCount (h : d.Writes base kept buf .discard rest w) {x : Byte}
    (hx : x.toNat = buf.length % 256) : (transferCount d.lenHi x).toNat = buf.length :=
  transferCount_of_parts (h.lenHi rfl) hx

theorem Device.Writes.move (h : d.Writes base kept buf pc rest w) (hm : d.WriteMove buf.length pc rest d' pc' rest') :
    d'.Writes base kept buf pc' rest' w := by
  cases hm with
  | lenHi _ x hx _ =>
    exact { feed := h.feed, rxq := h.rxq, sent := h.sent, start := fun _ => h.start rfl, lenHi := fun _ => hx,
            count := nofun, last := nofun }
  | discard _ x hx _ =>
    obtain ⟨hrest, hunsent, -⟩ := h.start rfl
    refine { feed := h.feed, rxq := h.rxq, sent := h.sent, start := nofun, lenHi := nofun, count := fun _ => ?_,
             last := nofun }
    rw [Device.unsent_discard, hunsent, List.length_nil, Nat.zero_add, hrest]
    exact h.transferCount hx
  | poll hpc hpc' _ hlast =>
    refine { feed := h.feed, rxq := h.rxq, sent := h.sent, start := fun hno => ?_, lenHi := ?_,
             count := fun _ => h.count hpc, last := fun hs => (hlast hs).elim h.last id }
    · rw [hpc'] at hno; cases hno
    · rintro rfl; cases hpc'
  | push b _ hpc' hlast =>
    refine { feed := h.feed, rxq := h.rxq, sent := ?_, start := fun hno => ?_, lenHi := ?_, count := fun _ => ?_,
             last := hlast }
    · rw [← h.sent, Device.unsent_pushTx]; simp only [List.append_assoc, List.singleton_append]
    · rw [hpc'] at hno; cases hno
    · rintro rfl; cases hpc'
    · have hcount := h.count rfl
      rw [List.length_cons] at hcount
      rw [Device.unsent_pushTx, List.length_append, List.length_singleton, Device.pushTx_discard, hcount]
      omega

/-- R143: a launch takes a queued byte, since FEED is 0; a completion sends it and drops the reply, since DISCARD counts
it. -/
theorem Device.Writes.engine (h : d.Writes base kept buf pc rest w) (he : d.EngineStep cfg w d' w') :
    d'.Writes base kept buf pc rest w' := by
  cases he with
  | launch hc =>
    obtain ⟨hidle, hsource, -⟩ := Device.canLaunch_iff.mp hc
    have hq : d.txq ≠ [] := (Device.hasSource_iff.mp hsource).resolve_right (fun hne => hne h.feed)
    have hunsent : (d.launch cfg).unsent = d.unsent := Device.unsent_launch hidle hq
    obtain ⟨b, q, hb⟩ := List.exists_cons_of_ne_nil hq
    have hlaunch := Device.launch_cons (cfg := cfg) hb
    refine { feed := ?_, rxq := ?_, sent := ?_, start := ?_, lenHi := ?_, count := ?_, last := h.last }
    · rw [hlaunch]; exact h.feed
    · rw [hlaunch]; exact h.rxq
    · rw [hunsent]; exact h.sent
    · rw [hunsent, hlaunch]; exact h.start
    · rw [hlaunch]; exact h.lenHi
    · rw [hunsent, hlaunch]; exact h.count
  | complete r hb =>
    have hunsent := Device.unsent_complete hb r
    have hdeclared : pc.declared = true := by
      by_contra hno
      obtain ⟨-, hnil, -⟩ := h.start (Bool.eq_false_iff.mpr hno)
      rw [hnil] at hunsent
      cases hunsent
    have hcount := h.count hdeclared
    rw [hunsent, List.length_cons] at hcount
    have hdiscard : d.discard ≠ 0 := count_ne_zero_of_lt (n := 0) (by omega)
    have hone := count_sub_one_toNat hdiscard
    have hcomplete : d.complete r = { d with discard := d.discard - 1, busy := false } := if_neg hdiscard
    refine { feed := ?_, rxq := ?_, sent := ?_, start := fun hno => ?_, lenHi := ?_, count := fun _ => ?_,
             last := h.last }
    · rw [hcomplete]; exact h.feed
    · rw [hcomplete]; exact h.rxq
    · rw [← h.sent, hunsent]
      simp only [List.map_append, List.map_cons, List.map_nil, List.append_assoc, List.nil_append,
        List.cons_append]
    · rw [hdeclared] at hno; cases hno
    · rw [hcomplete]; exact h.lenHi
    · have hleft : (d.complete r).discard = d.discard - 1 := by rw [hcomplete]
      rw [hleft]
      omega
  | apart cd ext f n => exact ⟨h.feed, h.rxq, h.sent, h.start, h.lenHi, h.count, h.last⟩

/-- R153, R280: DISCARD = 0 at the completion poll says that the whole buffer has been sent. -/
theorem Device.Writes.returned (h : d.Writes base kept buf .status rest w) (hdiscard : d.discard = 0) :
    w.map Exchange.tx = base ++ buf ∧ d.quiet = true ∧ d.rxq = kept := by
  have hrest := h.last rfl
  have hcount := h.count rfl
  rw [hdiscard, hrest] at hcount
  have hunsent : d.unsent = [] := List.length_eq_zero_iff.mp hcount.symm
  obtain ⟨hidle, hq⟩ := d.unsent_eq_nil.mp hunsent
  have hsent := h.sent
  rw [hunsent, hrest, List.append_nil, List.append_nil] at hsent
  exact ⟨hsent, Device.quiet_iff.mpr ⟨h.feed, hdiscard, hq, hidle⟩, h.rxq⟩

/-! ## One step of any agent -/

/-- The state after a step of a write procedure: it goes on, has returned, or has given up (R281). -/
theorem procStep_keeps_writing (ha : s.Attached) (hp : s.env.boardPresent = true) (hm : s.WriteMirror)
    (hw : s.Writing base kept buf) (h : procStep s = .next t) :
    t.Writing base kept buf ∨
      (t.host.app = .idle ∧ t.host.result = .done ∧ t.wire.map Exchange.tx = base ++ buf ∧
        t.dev.quiet = true ∧ t.dev.rxq = kept) ∨
      (t.host.app = .idle ∧ s.cfg.retryBound ≠ none ∧ ∃ n, t.host.result = .incomplete n) := by
  obtain ⟨pc, rest, happ, hwrites⟩ := writing_iff.mp hw
  have hrunning : s.host.app.writing ≠ none := by rw [happ]; nofun
  cases procStep_writing ha hp hm hrunning h with
  | goes hgo _ hwire =>
    obtain ⟨pc₀, size₀, rest₀, pc', rest', happ₀, happ', hmove⟩ := hgo
    cases happ₀.symm.trans happ
    exact .inl (writing_iff.mpr ⟨pc', rest', happ', hwire ▸ hwrites.move hmove⟩)
  | returns hret hidle _ hwire =>
    obtain ⟨⟨size₀, rest₀, happ₀⟩, hdiscard, hdev, hresult⟩ := hret
    cases happ₀.symm.trans happ
    rw [hwire, hdev]
    exact .inr (.inl ⟨hidle, hresult, hwrites.returned hdiscard⟩)
  | givesUp hbound hidle n hresult => exact .inr (.inr ⟨hidle, hbound, n, hresult⟩)

theorem State.Beside.writing (h : s.Beside t) (hw : s.Writing base kept buf) : t.Writing base kept buf := by
  obtain ⟨pc, rest, happ, hwrites⟩ := writing_iff.mp hw
  exact writing_iff.mpr ⟨pc, rest, h.app ▸ happ, hwrites.engine h.engine⟩

/-! ## Entry -/

/-- R152, R153: a write procedure begins with its whole buffer to push, the engine quiet. -/
theorem writing_of_quiet (hquiet : s.dev.quiet = true)
    (happ : s.host.app.writing = some (.lenHi, buf.length, buf)) :
    s.Writing (s.wire.map Exchange.tx) s.dev.rxq buf := by
  obtain ⟨hfeed, hdiscard, hq, hidle⟩ := Device.quiet_iff.mp hquiet
  have hunsent : s.dev.unsent = [] := s.dev.unsent_eq_nil.mpr ⟨hidle, hq⟩
  refine writing_iff.mpr ⟨.lenHi, buf, happ, hfeed, rfl, ?_, fun _ => ⟨rfl, hunsent, hdiscard⟩, nofun, nofun, nofun⟩
  rw [hunsent, List.append_nil]

theorem writeEntry_writing (hlen : buf.length ≤ 65535) : (writeEntry buf).writing = some (.lenHi, buf.length, buf) := by
  unfold writeEntry
  split
  · rfl
  · simp only [AppState.writing, BitVec.toNat_ofNat, Nat.mod_eq_of_lt (show buf.length < 2 ^ 16 by omega)]

theorem writeEntry_offPass (buf : List Byte) : (writeEntry buf).inPass = false := by
  unfold writeEntry
  split <;> rfl

/-- A call that enters a write procedure. -/
theorem call_writing {p : Call} {a : AppState} (h : s.Operational) (hquiet : s.dev.quiet = true)
    (henter : enter p s = probedCall s a) (ha : a.writing = some (.lenHi, buf.length, buf)) (hpass : a.inPass = false) :
    ∃ t, runEvent (.call .application p) s = .next t ∧ t.Writing (s.wire.map Exchange.tx) s.dev.rxq buf ∧
      t.WriteMirror :=
  ⟨s.goto a, (call_ready h.ready p).trans (henter.trans (probedCall_probed h.bound h.probed a)),
    writing_of_quiet (s := s.goto a) hquiet ha, writeMirror_of_offPass hpass⟩

/-! ## The declaration and the completion poll -/

/-- R126, R152, R153: the WR.RX_DISCARD step of either write procedure leaves DISCARD = its size. -/
theorem procStep_declares (h : s.Driving) (hw : s.Writing base kept buf)
    (happ : (∃ v, s.host.app = .spiWrite .discard v) ∨ (∃ b, s.host.app = .spiWrite1 .discard b)) :
    ∃ t, procStep s = .next t ∧ t.dev.discard.toNat = buf.length := by
  obtain ⟨pc, rest, hwriting, hwrites⟩ := writing_iff.mp hw
  rcases happ with ⟨v, happ⟩ | ⟨b, happ⟩
  · rw [happ, AppState.writing, Option.some.injEq, Prod.mk.injEq, Prod.mk.injEq] at hwriting
    obtain ⟨rfl, hsize, rfl⟩ := hwriting
    have hdeclared := hwrites.transferCount (x := countLow v.size) (hsize ▸ countLow_toNat v.size)
    refine ⟨(s.setDev { s.dev with discard := _ }).goto (.spiWrite .tail v), ?_, hdeclared⟩
    rw [procStep, happ]
    exact (wr_wrRxDiscard h _ _).trans (if_pos (hwrites.quiet rfl))
  · rw [happ, AppState.writing, Option.some.injEq, Prod.mk.injEq, Prod.mk.injEq] at hwriting
    obtain ⟨rfl, hsize, rfl⟩ := hwriting
    have hdeclared := hwrites.transferCount (x := 0x01) (hsize ▸ rfl)
    refine ⟨(s.setDev { s.dev with discard := _ }).goto (.spiWrite1 .tail b), ?_, hdeclared⟩
    rw [procStep, happ]
    exact (wr_wrRxDiscard h _ _).trans (if_pos (hwrites.quiet rfl))

/-- R280: a poll of `rx-discard-empty` that finds DISCARD = 0. -/
theorem completionPoll_returns (h : s.Driving) (hdiscard : s.dev.discard = 0) (k : State → Out) :
    rd .rdStatus s (fun st u => if rxDiscardEmpty u.cfg st then .next (u.finish .done) else k u) = .next { s with
      host := { s.host with app := .idle, result := .done }
      readData := Config.anyByte s.draws ||| s.cfg.stRxdEmptyMask
      draws := s.draws + 1 } := by
  have hempty := (rxDiscardEmpty_statusByte h.attached.params s.dev s.anyByte).mpr hdiscard
  have hbyte : statusByte s.cfg s.dev s.anyByte = Config.anyByte s.draws ||| s.cfg.stRxdEmptyMask := if_pos hdiscard
  refine (rd_rdStatus h _).trans ((if_pos hempty).trans ?_)
  rw [hbyte]
  rfl

/-- R152, R153, R280: a completion poll that finds DISCARD = 0 returns. -/
theorem procStep_completes (h : s.Driving) (hdiscard : s.dev.discard = 0)
    (happ : (∃ v, s.host.app = .spiWrite .status v) ∨ (∃ n b, s.host.app = .spiWrite1 (.status n) b)) :
    procStep s = .next { s with
      host := { s.host with app := .idle, result := .done }
      readData := Config.anyByte s.draws ||| s.cfg.stRxdEmptyMask
      draws := s.draws + 1 } := by
  rcases happ with ⟨v, happ⟩ | ⟨n, b, happ⟩ <;> rw [procStep, happ] <;> exact completionPoll_returns h hdiscard _

/-- A transfer that ends with `done` has returned. -/
theorem State.Transfers.of_done {Goes : Device → AppState → Prop} {Returns : Device → Result → Prop}
    (h : s.Transfers t Goes Returns) (hgoes : ∀ d, ¬Goes d .idle) (happ : t.host.app = .idle)
    (hdone : t.host.result = .done) : Returns t.dev t.host.result := by
  cases h with
  | goes hgo _ _ => rw [happ] at hgo; exact absurd hgo (hgoes _)
  | returns hret _ _ _ => exact hret
  | givesUp _ _ n hresult => rw [hdone] at hresult; cases hresult

/-- A write procedure returns only at a poll that finds DISCARD = 0, and leaves the board as that poll found it. -/
theorem procStep_write_done (ha : s.Attached) (hp : s.env.boardPresent = true)
    (hrun : (∃ pc v, s.host.app = .spiWrite pc v) ∨ (∃ pc b, s.host.app = .spiWrite1 pc b))
    (h : procStep s = .next t) (happ : t.host.app = .idle) (hdone : t.host.result = .done) :
    s.dev.discard = 0 ∧ t.dev = s.dev := by
  rcases hrun with ⟨pc, v, hrun⟩ | ⟨pc, b, hrun⟩ <;> rw [procStep, hrun] at h
  · have hret := (spiWriteStep_transfers ha hp h).of_done (fun _ hgo => by obtain ⟨_, _, hno, -⟩ := hgo; cases hno)
      happ hdone
    exact ⟨hret.discard, hret.dev⟩
  · have hret := (spiWrite1Step_transfers ha hp h).of_done
      (fun _ hgo => by obtain ⟨_, _, _, _, _, -, hno, -⟩ := hgo; cases hno) happ hdone
    exact ⟨hret.discard, hret.dev⟩

/-! ## `spi_write1`, run (R153) -/

/-- `s` in the midst of a procedure: the board is `d`, the byte last read `x`, the application context at `a`. -/
def State.midway (s : State) (d : Device) (x : Byte) (a : AppState) : State := ((s.setDev d).answer x).goto a

theorem State.Driving.midway (h : s.Driving) (d : Device) (x : Byte) (a : AppState) : (s.midway d x a).Driving :=
  ⟨⟨h.attached.params, h.attached.base, h.attached.context⟩, h.present, h.bound, h.probed⟩

theorem State.Driving.sent (h : s.Driving) (b : Byte) (q : List Byte) (r : Byte) : (s.sent b q r).Driving :=
  ⟨⟨h.attached.params, h.attached.base, h.attached.context⟩, h.present, h.bound, h.probed⟩

theorem appStep_midway (hidle : s.host.handler = .idle) (d : Device) (x : Byte) (a : AppState) :
    runEvent .appStep (s.midway d x a) = procStep (s.midway d x a) :=
  appStep_of_idle (s := s.midway d x a) hidle

/-- The call of a procedure that needs a probed board. -/
theorem call_midway {p : Call} {a : AppState} (h : s.Operational) (henter : enter p s = probedCall s a) :
    runEvent (.call .application p) s = .next (s.midway s.dev s.readData a) :=
  (call_ready h.ready p).trans (henter.trans (probedCall_probed h.bound h.probed a))

/-- The board of a quiet engine after `spi_write1` has declared one reply (R63, R126). -/
def Device.declared1 (d : Device) : Device := { d with lenHi := 0, discard := 1 }

section Steps

variable (h : s.Driving) (hidle : s.host.handler = .idle) (d : Device) (x : Byte)

include h hidle

theorem appStep_write1_lenHi (hquiet : d.quiet = true) (b : Byte) :
    runEvent .appStep (s.midway d x (.spiWrite1 .lenHi b)) =
      .next (s.midway { d with lenHi := 0 } x (.spiWrite1 .discard b)) := by
  rw [appStep_midway hidle]
  exact (wr_wrLenHi (h.midway _ _ _) _ _).trans (if_pos hquiet)

theorem appStep_write1_discard (hquiet : d.quiet = true) (hlen : d.lenHi = 0) (b : Byte) :
    runEvent .appStep (s.midway d x (.spiWrite1 .discard b)) =
      .next (s.midway { d with discard := 1 } x (.spiWrite1 .tail b)) := by
  have hone : transferCount d.lenHi 0x01 = 1 := by rw [hlen]; decide
  rw [appStep_midway hidle, ← hone]
  exact (wr_wrRxDiscard (h.midway _ _ _) _ _).trans (if_pos hquiet)

/-- R153: one reply is declared. -/
theorem runEvents_write1_declare (hquiet : d.quiet = true) (b : Byte) :
    runEvents (.appStep :: .appStep :: es) (s.midway d x (.spiWrite1 .lenHi b)) =
      runEvents es (s.midway d.declared1 x (.spiWrite1 .tail b)) := by
  rw [runEvents_of_next (appStep_write1_lenHi h hidle d x hquiet b),
    runEvents_of_next (appStep_write1_discard h hidle { d with lenHi := 0 } x hquiet rfl b)]
  rfl

theorem appStep_write1_tail (b : Byte) :
    runEvent .appStep (s.midway d x (.spiWrite1 .tail b)) =
      .next (s.midway d d.txTail (.spiWrite1 (.spin d.txTail 0) b)) := by
  rw [appStep_midway hidle]
  exact rd_rdTxTail (h.midway _ _ _) fun tl t => .next (t.goto (.spiWrite1 (.spin tl 0) b))

theorem appStep_write1_spin {tl : Byte} (hempty : d.txHead = tl) (n : Nat) (b : Byte) :
    runEvent .appStep (s.midway d x (.spiWrite1 (.spin tl n) b)) = .next (s.midway d d.txHead (.spiWrite1 .data b)) := by
  rw [appStep_midway hidle]
  exact (rd_rdTxHead (h.midway _ _ _) fun hd t =>
    if hd = tl then .next (t.goto (.spiWrite1 .data b))
    else pollAgain t n 0 fun p => .spiWrite1 (.spin tl p) b).trans (if_pos hempty)

theorem appStep_write1_data (hroom : d.txq.length < s.cfg.fifoDepth) (b : Byte) :
    runEvent .appStep (s.midway d x (.spiWrite1 .data b)) =
      .next (s.midway (d.pushTx b) x (.spiWrite1 (.status 0) b)) := by
  rw [appStep_midway hidle]
  exact (wr_wrFifoData (h.midway _ _ _) _ _).trans (if_pos hroom)

/-- R153: with the transmit FIFO empty the first poll goes on to the push. -/
theorem runEvents_write1_push (hempty : d.txHead = d.txTail) (hroom : d.txq.length < s.cfg.fifoDepth) (b : Byte) :
    runEvents (.appStep :: .appStep :: .appStep :: es) (s.midway d x (.spiWrite1 .tail b)) =
      runEvents es (s.midway (d.pushTx b) d.txHead (.spiWrite1 (.status 0) b)) := by
  rw [runEvents_of_next (appStep_write1_tail h hidle d x b),
    runEvents_of_next (appStep_write1_spin h hidle d d.txTail hempty 0 b),
    runEvents_of_next (appStep_write1_data h hidle d d.txHead hroom b)]

end Steps

/-- `spi_write1(b)` has declared one reply and pushed `b`. -/
def State.pushed1 (s : State) (b : Byte) : State :=
  s.midway (s.dev.declared1.pushTx b) s.dev.txHead (.spiWrite1 (.status 0) b)

/-- R153: the call and the transactions up to the push, on a quiet engine. -/
theorem runEvents_pushed1 (h : s.Operational) (hquiet : s.dev.quiet = true) (hempty : s.dev.txHead = s.dev.txTail) :
    runEvents (.call .application (.spiWrite1 b) :: .appStep :: .appStep :: .appStep :: .appStep :: .appStep :: es) s =
      runEvents es (s.pushed1 b) := by
  obtain ⟨-, -, hq, -⟩ := Device.quiet_iff.mp hquiet
  have hroom : s.dev.txq.length < s.cfg.fifoDepth := by
    rw [hq]
    exact (Params.wf_depth h.attached.params).1
  rw [runEvents_of_next (call_midway h rfl), runEvents_write1_declare h.driving h.ready.1 s.dev _ hquiet b,
    runEvents_write1_push h.driving h.ready.1 s.dev.declared1 _ hempty hroom b]
  rfl

end Machine

open Machine

/-- Settles O31: one reply is declared and `b` pushed; one exchange sends it and uses DISCARD up; the completion poll
returns. -/
theorem singleByteWriteSendsTheByte : Obligations.SingleByteWriteSendsTheByte := by
  intro s b r h hquiet hempty
  obtain ⟨-, hdiscard, hq, hidle⟩ := Device.quiet_iff.mp hquiet
  have hpushed : (s.pushed1 b).dev.txq = b :: [] := congrArg (· ++ [b]) hq
  have hcount : (s.pushed1 b).dev.discard ≠ 0 := show (1 : Count) ≠ 0 by decide
  have hdrive : ((s.pushed1 b).sent b [] r).Driving := (h.driving.midway _ _ _).sent b [] r
  have hready : ((s.pushed1 b).sent b [] r).host.handler = .idle := h.ready.1
  have hzero : ((s.pushed1 b).sent b [] r).dev.discard = 0 := show (1 : Count) - 1 = 0 by decide
  rw [runEvents_pushed1 h hquiet hempty, runEvents_sent (s := s.pushed1 b) hidle hpushed hcount, runEvents_singleton,
    appStep_of_idle hready, procStep_completes hdrive hzero (.inr ⟨0, b, rfl⟩)]
  simp [State.sent, State.pushed1, State.midway, Device.declared1, Device.pushTx, hdiscard, hq]

/-- Settles O32: the procedure's own step makes one of `WriteMove`'s moves, returns at the completion poll or gives up;
any other step is the engine's or reaches neither FIFO (`step_split`). -/
theorem writesSendTheirBufferInOrder : Obligations.WritesSendTheirBufferInOrder := by
  refine ⟨fun s buf h hquiet hlen => ?_, fun s b h hquiet => ?_,
    fun s base kept buf rest hagenda ha hp hb hprobed hidle hw happ => ?_,
    fun s t base kept buf ha hp hm hw h => ?_, fun s t rest hagenda ha hp hrun h happ hdone => ?_,
    fun s rest hagenda ha hp hb hprobed hidle hdiscard happ => ?_⟩
  · exact call_writing h hquiet (if_pos hlen) (writeEntry_writing hlen) (writeEntry_offPass buf)
  · exact call_writing h hquiet rfl rfl rfl
  · rw [step_appStep hagenda hidle]
    exact procStep_declares (s := { s with agenda := rest }) ⟨⟨ha.params, ha.base, ha.context⟩, hp, hb, hprobed⟩ hw happ
  · rcases step_split ha h with ⟨agenda, draws, -, hproc⟩ | hfree | hbeside
    · exact procStep_keeps_writing (s := { s with agenda := agenda, draws := draws })
        ⟨ha.params, ha.base, ha.context⟩ hp hm hw hproc
    · obtain ⟨pc, rest, hwriting, -⟩ := writing_iff.mp hw
      rw [hfree.idle] at hwriting
      cases hwriting
    · exact .inl (hbeside.writing hw)
  · rw [step_of_agenda hagenda] at h
    exact procStep_write_done (s := { s with agenda := rest }) ⟨ha.params, ha.base, ha.context⟩ hp hrun
      (appStep_next h).2 happ hdone
  · rw [step_appStep hagenda hidle]
    exact procStep_completes (s := { s with agenda := rest }) ⟨⟨ha.params, ha.base, ha.context⟩, hp, hb, hprobed⟩
      hdiscard happ

end Sys2Proof
end

section
/-! The read procedures (O30, O34): `spi_read` and `spi_read1` make the same moves (`Device.ReadMove`), each of which, like
each step of the engine, keeps the replies since the start equal to the buffer followed by the receive FIFO. -/

namespace Sys2Proof

namespace Machine

variable {cfg : Params} {d d' : Device} {w w' base : List Exchange} {s t : State} {buf buf' : List Byte}
  {pc pc' : ReadPc} {size left left' : Nat} {r : Byte} {es : List Event}

/-! ## The moves of a read procedure (R150, R151) -/

/-- The read procedure has loaded FEED with its size. -/
def ReadPc.fed : ReadPc → Bool
  | .lenHi | .feed => false
  | .head | .poll | .copy => true

/-- A step of a read procedure of `size` bytes, at `pc` with the buffer `buf` and `left` bytes wanted: load FEED with the
size, high byte first; poll; or take one byte from the receive FIFO. -/
inductive Device.ReadMove (d : Device) (size : Nat) :
    ReadPc → List Byte → Nat → Device → ReadPc → List Byte → Nat → Prop
  | lenHi (hquiet : d.quiet = true) (x : Byte) (hx : x.toNat = size / 256) (buf : List Byte) (left : Nat) :
      ReadMove d size .lenHi buf left { d with lenHi := x } .feed buf left
  | feed (hquiet : d.quiet = true) (x : Byte) (hx : x.toNat = size % 256) (buf : List Byte) (left : Nat) :
      ReadMove d size .feed buf left { d with feed := transferCount d.lenHi x } .head buf left
  | poll {pc pc' : ReadPc} (hpc : pc.fed = true) (hpc' : pc'.fed = true) (buf : List Byte) (left : Nat) :
      ReadMove d size pc buf left d pc' buf left
  | take (b : Byte) (q : List Byte) (hq : d.rxq = b :: q) {pc' : ReadPc} (hpc' : pc'.fed = true) (buf : List Byte)
      (left : Nat) : ReadMove d size .copy buf (left + 1) (d.popRx q) pc' (buf ++ [b]) left

/-- A read procedure at `a` goes on at `a'`. -/
def Device.GoesReading (d : Device) (a : AppState) (d' : Device) (a' : AppState) : Prop :=
  ∃ pc size buf left pc' buf' left', a.reading = some (pc, size, buf, left) ∧
    a'.reading = some (pc', size, buf', left') ∧ d.ReadMove size pc buf left d' pc' buf' left'

/-- A read procedure at `a` returns, with its last move, a buffer that leaves no byte wanted. -/
def Device.ReadReturn (d : Device) (a : AppState) (d' : Device) (x : Result) : Prop :=
  ∃ pc size buf left pc' buf', a.reading = some (pc, size, buf, left) ∧ pc'.fed = true ∧
    d.ReadMove size pc buf left d' pc' buf' 0 ∧ (x = .bytes buf' ∨ ∃ b, buf' = [b] ∧ x = .byte b)

theorem reading_copy (v : ReadVars) :
    (AppState.spiRead .copy v).reading = some (.copy, v.size.toNat, v.buf, v.left - (v.n - v.k)) := rfl

theorem reading_head (v : ReadVars) :
    (AppState.spiRead .head v).reading = some (.head, v.size.toNat, v.buf, v.left) := rfl

theorem reading_feed (v : ReadVars) :
    (AppState.spiRead .feed v).reading = some (.feed, v.size.toNat, v.buf, v.left) := rfl

/-- What the mirror says of a pass, where there is one: at least one byte is still to copy, and no more than are
wanted (R150). -/
def ReadVars.PassInv (pc : ReadPc) (v : ReadVars) : Prop := pc = .copy → 1 ≤ v.k ∧ v.k ≤ v.n ∧ v.n ≤ v.left

theorem passInv_of_readMirror {v : ReadVars} (happ : s.host.app = .spiRead pc v) (hm : s.ReadMirror) :
    v.PassInv pc := by
  rintro rfl
  obtain ⟨h1, hkn, hnl, -, -⟩ := (readMirror_copy happ).mp hm
  exact ⟨h1, hkn, hnl⟩

/-- Within a pass, one byte fewer is wanted after a copy. -/
theorem ReadVars.PassInv.wanted {v : ReadVars} (h : v.PassInv .copy) :
    v.left - (v.n - v.k) = v.left - (v.n - (v.k - 1)) + 1 := by
  obtain ⟨h1, hkn, hnl⟩ := h rfl
  omega

/-- `spi_read`'s steps are these moves. -/
theorem ReadVars.Move.goesReading {v v' : ReadVars} (hpass : v.PassInv pc) (h : v.Move d pc d' pc' v') :
    d.GoesReading (.spiRead pc v) d' (.spiRead pc' v') := by
  cases h with
  | lenHi hquiet => exact ⟨_, _, _, _, _, _, _, rfl, rfl, .lenHi hquiet _ (countHigh_toNat v.size) _ _⟩
  | feed hquiet => exact ⟨_, _, _, _, _, _, _, rfl, rfl, .feed hquiet _ (countLow_toNat v.size) _ _⟩
  | head _ => exact ⟨_, _, _, _, _, _, _, rfl, rfl, .poll rfl rfl _ _⟩
  | poll n => exact ⟨_, _, _, _, _, _, _, rfl, rfl, .poll rfl rfl _ _⟩
  | pass n _ _ =>
    refine ⟨.poll, _, _, v.left, .copy, _, v.left, rfl, ?_, .poll rfl rfl _ _⟩
    rw [reading_copy]
    simp only [Nat.sub_self, Nat.sub_zero]
  | copy b q hq _ =>
    refine ⟨.copy, _, _, _, .copy, _, _, hpass.wanted ▸ reading_copy v, reading_copy _, .take b q hq rfl _ _⟩
  | endPass b q hq hk _ =>
    have hwanted := hpass.wanted
    rw [hk, Nat.sub_zero] at hwanted
    exact ⟨.copy, _, _, _, .poll, _, _, hwanted ▸ reading_copy v, rfl, .take b q hq rfl _ _⟩

theorem ReadVars.Return.readReturn {v : ReadVars} (hpass : v.PassInv pc) (h : v.Return d pc d' buf) :
    d.ReadReturn (.spiRead pc v) d' (.bytes buf) := by
  cases h with
  | empty hleft =>
    refine ⟨.head, v.size.toNat, v.buf, 0, .head, v.buf, ?_, rfl, .poll rfl rfl _ _, .inl rfl⟩
    rw [reading_head, hleft]
  | endPass b q hq hk hleft =>
    have hwanted := hpass.wanted
    rw [hk, Nat.sub_zero, hleft] at hwanted
    exact ⟨.copy, _, _, _, .copy, _, hwanted ▸ reading_copy v, rfl, .take b q hq rfl _ _, .inl rfl⟩

theorem spiRead1Step_driving {pc : Read1Pc} (ha : s.Attached) (hp : s.env.boardPresent = true)
    (h : spiRead1Step pc s = .next t) : s.Driving := by
  cases pc with simp only [spiRead1Step] at h
  | lenHi | feed => exact driving_of_wr ha hp h nofun
  | head | spin | data => exact driving_of_rd ha hp h nofun

/-- What one step of `spi_read1` comes to (R151). -/
theorem spiRead1Step_transfers {pc : Read1Pc} (ha : s.Attached) (hp : s.env.boardPresent = true)
    (h : spiRead1Step pc s = .next t) :
    s.Transfers t (s.dev.GoesReading (.spiRead1 pc)) (s.dev.ReadReturn (.spiRead1 pc)) := by
  have hdrive := spiRead1Step_driving ha hp h
  cases pc with simp only [spiRead1Step] at h
  | lenHi =>
    rw [wr_wrLenHi hdrive] at h
    split at h
    · exact .of_goto h rfl rfl ⟨_, _, _, _, _, _, _, rfl, rfl, .lenHi ‹_› _ rfl _ _⟩
    · cases h
  | feed =>
    rw [wr_wrTxFeed hdrive] at h
    split at h
    · exact .of_goto h rfl rfl ⟨_, _, _, _, _, _, _, rfl, rfl, .feed ‹_› _ rfl _ _⟩
    · cases h
  | head =>
    rw [rd_rdRxHead hdrive] at h
    exact .of_goto h rfl rfl ⟨_, _, _, _, _, _, _, rfl, rfl, .poll rfl rfl _ _⟩
  | spin hd polls =>
    rw [rd_rdRxTail hdrive] at h
    split at h
    · exact .of_pollAgain h rfl rfl ⟨_, _, _, _, _, _, _, rfl, rfl, .poll rfl rfl _ _⟩
    · exact .of_goto h rfl rfl ⟨_, _, _, _, _, _, _, rfl, rfl, .poll rfl rfl _ _⟩
  | data =>
    cases hq : s.dev.rxq with
    | nil => rw [rd_rdFifoData_nil hdrive hq] at h; cases h
    | cons b q =>
      rw [rd_rdFifoData_cons hdrive hq] at h
      exact .of_finish h rfl rfl
        ⟨.copy, _, _, _, .copy, _, rfl, rfl, .take b q hq rfl _ _, .inr ⟨b, rfl, rfl⟩⟩

/-- What one step of a read procedure comes to. -/
theorem procStep_reading (ha : s.Attached) (hp : s.env.boardPresent = true) (hm : s.ReadMirror)
    (hr : s.host.app.reading ≠ none) (h : procStep s = .next t) :
    s.Transfers t (s.dev.GoesReading s.host.app) (s.dev.ReadReturn s.host.app) := by
  generalize happ : s.host.app = a at hr
  rw [procStep, happ] at h
  cases a with
  | spiRead pc v =>
    have hpass := passInv_of_readMirror happ hm
    cases spiReadStep_transfers ha hp h with
    | goes hgo hcfg hwire =>
      obtain ⟨pc', v', happ', hmove⟩ := hgo
      exact .goes (happ' ▸ hmove.goesReading hpass) hcfg hwire
    | returns hret happ' hcfg hwire =>
      obtain ⟨buf, hresult, hret⟩ := hret
      exact .returns (hresult ▸ hret.readReturn hpass) happ' hcfg hwire
    | givesUp hbound happ' n hresult => exact .givesUp hbound happ' n hresult
  | spiRead1 pc => exact spiRead1Step_transfers ha hp h
  | _ => exact absurd rfl hr

/-! ## What the moves and the engine keep -/

/-- The exchange of a dummy byte answered by `r`. -/
def dummyExchange (cfg : Params) (ss : Byte) (r : Byte) : Exchange := ⟨ss, cfg.dummyTxByte, r⟩

/-- What `State.Reading` says of the device and the wire, with the read procedure at `pc`. -/
structure Device.Reads (cfg : Params) (base : List Exchange) (size : Nat) (pc : ReadPc) (buf : List Byte) (left : Nat)
    (d : Device) (w : List Exchange) : Prop where
  length : buf.length + left = size
  txq : d.txq = []
  discard : d.discard = 0
  dummy : d.busy = true → d.shiftTx = cfg.dummyTxByte
  replies : w = base ++ (buf ++ d.rxq).map (dummyExchange cfg d.ss)
  start : pc.fed = false → buf = [] ∧ d.quiet = true ∧ d.rxq = []
  lenHi : pc = .feed → d.lenHi.toNat = size / 256
  count : pc.fed = true → d.feed.toNat + (if d.busy then 1 else 0) + d.rxq.length + buf.length = size

theorem reading_iff : s.Reading base size ↔
    ∃ pc buf left, s.host.app.reading = some (pc, size, buf, left) ∧
      s.dev.Reads s.cfg base size pc buf left s.wire := by
  constructor
  · rintro ⟨pc, buf, left, happ, hlength, hq, hdiscard, hdummy, hwire, hphase⟩
    refine ⟨pc, buf, left, happ, hlength, hq, hdiscard, hdummy, hwire, ?_, ?_, ?_⟩ <;> cases pc <;>
      simp_all [ReadPc.fed]
  · rintro ⟨pc, buf, left, happ, hlength, hq, hdiscard, hdummy, hwire, hstart, hlenHi, hcount⟩
    refine ⟨pc, buf, left, happ, hlength, hq, hdiscard, hdummy, hwire, ?_⟩
    cases pc <;> simp_all [ReadPc.fed]

/-- R63, R127: LEN_HI and the trigger's byte feed the whole size. -/
theorem Device.Reads.transferCount (h : d.Reads cfg base size .feed buf left w) {x : Byte} (hx : x.toNat = size % 256) :
    (transferCount d.lenHi x).toNat = size :=
  transferCount_of_parts (h.lenHi rfl) hx

theorem Device.Reads.move (h : d.Reads cfg base size pc buf left w)
    (hm : d.ReadMove size pc buf left d' pc' buf' left') : d'.Reads cfg base size pc' buf' left' w := by
  cases hm with
  | lenHi _ x hx _ _ =>
    exact { length := h.length, txq := h.txq, discard := h.discard, dummy := h.dummy, replies := h.replies,
            start := fun _ => h.start rfl, lenHi := fun _ => hx, count := nofun }
  | feed hquiet x hx _ _ =>
    obtain ⟨hbuf, -, hrxq⟩ := h.start rfl
    refine { length := h.length, txq := h.txq, discard := h.discard, dummy := h.dummy, replies := h.replies,
             start := nofun, lenHi := nofun, count := fun _ => ?_ }
    have hfeed := h.transferCount hx
    simpa [hbuf, hrxq, Device.quiet_busy hquiet] using hfeed
  | poll hpc hpc' _ _ =>
    refine { length := h.length, txq := h.txq, discard := h.discard, dummy := h.dummy, replies := h.replies,
             start := fun hno => ?_, lenHi := ?_, count := fun _ => h.count hpc }
    · rw [hpc'] at hno; cases hno
    · rintro rfl; cases hpc'
  | take b q hq hpc' _ _ =>
    have hcount := h.count rfl
    have hlength := h.length
    have hreplies := h.replies
    rw [hq] at hcount hreplies
    refine { length := ?_, txq := h.txq, discard := h.discard, dummy := h.dummy, replies := ?_,
             start := fun hno => ?_, lenHi := ?_, count := fun _ => ?_ }
    · rw [List.length_append, List.length_singleton]; omega
    · rw [hreplies, List.append_assoc]; rfl
    · rw [hpc'] at hno; cases hno
    · rintro rfl; cases hpc'
    · show d.feed.toNat + (if d.busy then 1 else 0) + q.length + (buf ++ [b]).length = size
      rw [List.length_cons] at hcount
      rw [List.length_append, List.length_singleton]
      omega

/-- R143: a launch takes a dummy byte against FEED, TXQ being empty; a completion queues its reply, DISCARD being 0.
Before FEED is loaded neither can happen. -/
theorem Device.Reads.engine (h : d.Reads cfg base size pc buf left w) (he : d.EngineStep cfg w d' w') :
    d'.Reads cfg base size pc buf left w' := by
  cases he with
  | launch hc =>
    obtain ⟨hidle, hsource, -⟩ := Device.canLaunch_iff.mp hc
    have hfeed : d.feed ≠ 0 := (Device.hasSource_iff.mp hsource).resolve_left (fun hne => hne h.txq)
    have hfed : pc.fed = true := by
      by_contra hno
      obtain ⟨-, hquiet, -⟩ := h.start (Bool.eq_false_iff.mpr hno)
      exact hfeed (Device.quiet_iff.mp hquiet).1
    have hcount := h.count hfed
    have hone := count_sub_one_toNat hfeed
    rw [Device.launch_nil h.txq]
    refine { length := h.length, txq := h.txq, discard := h.discard, dummy := fun _ => rfl, replies := h.replies,
             start := fun hno => ?_, lenHi := h.lenHi, count := fun _ => ?_ }
    · rw [hfed] at hno; cases hno
    · simp only [hidle, Bool.false_eq_true, if_false] at hcount
      simp only [if_true]
      omega
  | complete r hb =>
    have hfed : pc.fed = true := by
      by_contra hno
      obtain ⟨-, hquiet, -⟩ := h.start (Bool.eq_false_iff.mpr hno)
      exact Bool.false_ne_true ((Device.quiet_busy hquiet).symm.trans hb)
    have hcount := h.count hfed
    rw [show d.complete r = { d.pushRx r with busy := false } from if_pos h.discard]
    refine { length := h.length, txq := h.txq, discard := h.discard, dummy := nofun, replies := ?_,
             start := fun hno => ?_, lenHi := h.lenHi, count := fun _ => ?_ }
    · show w ++ [_] = base ++ (buf ++ (d.rxq ++ [r])).map (dummyExchange cfg d.ss)
      rw [h.dummy hb, ← List.append_assoc, List.map_append, ← List.append_assoc, ← h.replies]
      rfl
    · rw [hfed] at hno; cases hno
    · simp only [hb, if_true] at hcount
      simp only [Device.pushRx_feed, Device.pushRx_rxq, List.length_append, List.length_singleton, Bool.false_eq_true,
        if_false]
      omega
  | apart cd ext f n =>
    exact ⟨h.length, h.txq, h.discard, h.dummy, h.replies, h.start, h.lenHi, h.count⟩

/-- R150, R151: with no byte wanted any more, the buffer is all the replies, and the engine is quiet. -/
theorem Device.Reads.returned (h : d.Reads cfg base size pc buf 0 w) (hfed : pc.fed = true) :
    d.quiet = true ∧ d.rxq = [] ∧ buf.length = size ∧ w = base ++ buf.map (dummyExchange cfg d.ss) := by
  have hlength : buf.length = size := h.length
  have hcount := h.count hfed
  have hfeed : d.feed = 0 := BitVec.eq_of_toNat_eq (show d.feed.toNat = 0 by omega)
  have hidle : d.busy = false := by
    by_contra hbusy
    rw [if_pos (Bool.of_not_eq_false hbusy)] at hcount
    omega
  have hrxq : d.rxq = [] := List.length_eq_zero_iff.mp (by omega)
  have hreplies := h.replies
  rw [hrxq, List.append_nil] at hreplies
  exact ⟨Device.quiet_iff.mpr ⟨hfeed, h.discard, h.txq, hidle⟩, hrxq, hlength, hreplies⟩

/-! ## One step of any agent -/

/-- The state after a step of a read procedure: it goes on, has returned, or has given up (R281). -/
theorem procStep_keeps_reading (ha : s.Attached) (hp : s.env.boardPresent = true) (hm : s.ReadMirror)
    (hr : s.Reading base size) (h : procStep s = .next t) :
    t.Reading base size ∨
      (t.host.app = .idle ∧ t.dev.quiet = true ∧ t.dev.rxq = [] ∧ ∃ buf : List Byte, buf.length = size ∧
        t.wire = base ++ buf.map (fun r => ⟨t.dev.ss, t.cfg.dummyTxByte, r⟩) ∧
        (t.host.result = .bytes buf ∨ ∃ b, buf = [b] ∧ t.host.result = .byte b)) ∨
      (t.host.app = .idle ∧ s.cfg.retryBound ≠ none ∧ ∃ n, t.host.result = .incomplete n) := by
  obtain ⟨pc, buf, left, happ, hreads⟩ := reading_iff.mp hr
  have hrunning : s.host.app.reading ≠ none := by rw [happ]; nofun
  cases procStep_reading ha hp hm hrunning h with
  | goes hgo hcfg hwire =>
    obtain ⟨pc₀, size₀, buf₀, left₀, pc', buf', left', happ₀, happ', hmove⟩ := hgo
    cases happ₀.symm.trans happ
    exact .inl (reading_iff.mpr ⟨pc', buf', left', happ', hcfg ▸ hwire ▸ hreads.move hmove⟩)
  | returns hret hidle hcfg hwire =>
    obtain ⟨pc₀, size₀, buf₀, left₀, pc', buf', happ₀, hfed, hmove, hresult⟩ := hret
    cases happ₀.symm.trans happ
    obtain ⟨hquiet, hrxq, hlength, hreplies⟩ := (hreads.move hmove).returned hfed
    exact .inr (.inl ⟨hidle, hquiet, hrxq, buf', hlength, hcfg ▸ hwire ▸ hreplies, hresult⟩)
  | givesUp hbound hidle n hresult => exact .inr (.inr ⟨hidle, hbound, n, hresult⟩)

theorem State.Beside.reading (h : s.Beside t) (hr : s.Reading base size) : t.Reading base size := by
  obtain ⟨pc, buf, left, happ, hreads⟩ := reading_iff.mp hr
  exact reading_iff.mpr ⟨pc, buf, left, h.app ▸ happ, h.cfg ▸ hreads.engine h.engine⟩

/-! ## Entry, and the feed -/

/-- R150, R151: a read procedure begins with an empty buffer, the engine quiet. -/
theorem reading_of_quiet (hquiet : s.dev.quiet = true) (hrxq : s.dev.rxq = [])
    (happ : s.host.app.reading = some (.lenHi, size, [], size)) : s.Reading s.wire size := by
  obtain ⟨-, hdiscard, hq, hidle⟩ := Device.quiet_iff.mp hquiet
  refine reading_iff.mpr ⟨.lenHi, [], size, happ, Nat.zero_add size, hq, hdiscard, fun hb => ?_, ?_,
    fun _ => ⟨rfl, hquiet, hrxq⟩, nofun, nofun⟩
  · rw [hidle] at hb; cases hb
  · rw [hrxq, List.append_nil, List.map_nil, List.append_nil]

theorem readEntry_reading (n : Count) : (readEntry n).reading = some (.lenHi, n.toNat, [], n.toNat) := by
  unfold readEntry
  split
  · next h => rw [h]; rfl
  · rfl

theorem readEntry_offPass (n : Count) : (readEntry n).inPass = false := by
  unfold readEntry
  split <;> rfl

/-- A call that enters a read procedure. -/
theorem call_reading {p : Call} {a : AppState} (h : s.Operational) (hquiet : s.dev.quiet = true) (hrxq : s.dev.rxq = [])
    (henter : enter p s = probedCall s a) (ha : a.reading = some (.lenHi, size, [], size)) (hpass : a.inPass = false) :
    ∃ t, runEvent (.call .application p) s = .next t ∧ t.Reading s.wire size ∧ t.ReadMirror :=
  ⟨s.goto a, (call_ready h.ready p).trans (henter.trans (probedCall_probed h.bound h.probed a)),
    reading_of_quiet (s := s.goto a) hquiet hrxq ha, readMirror_of_offPass hpass⟩

/-- R127, R150, R151: the WR.TX_FEED step of either read procedure leaves FEED = its size. -/
theorem procStep_feeds (h : s.Driving) (hr : s.Reading base size)
    (happ : (∃ v, s.host.app = .spiRead .feed v) ∨ s.host.app = .spiRead1 .feed) :
    ∃ t, procStep s = .next t ∧ t.dev.feed.toNat = size := by
  obtain ⟨pc, buf, left, hreading, hreads⟩ := reading_iff.mp hr
  rcases happ with ⟨v, happ⟩ | happ
  · rw [happ, reading_feed, Option.some.injEq, Prod.mk.injEq, Prod.mk.injEq] at hreading
    obtain ⟨rfl, hsize, -⟩ := hreading
    have hfed := hreads.transferCount (x := countLow v.size) (hsize ▸ countLow_toNat v.size)
    refine ⟨(s.setDev { s.dev with feed := _ }).goto (.spiRead .head v), ?_, hfed⟩
    rw [procStep, happ]
    exact (wr_wrTxFeed h _ _).trans (if_pos (hreads.start rfl).2.1)
  · rw [happ, AppState.reading, Option.some.injEq, Prod.mk.injEq, Prod.mk.injEq] at hreading
    obtain ⟨rfl, hsize, -⟩ := hreading
    have hfed := hreads.transferCount (x := 0x01) (hsize ▸ rfl)
    refine ⟨(s.setDev { s.dev with feed := _ }).goto (.spiRead1 .head), ?_, hfed⟩
    rw [procStep, happ]
    exact (wr_wrTxFeed h _ _).trans (if_pos (hreads.start rfl).2.1)

/-! ## The trace of a transfer started anywhere -/

/-- `State.ReadTrace` of the device and the wire. -/
def Device.Traces (replies buf : List Byte) (d : Device) (w : List Exchange) : Prop :=
  d.discard = 0 ∧ w.map Exchange.rx = replies ++ buf ++ d.rxq

variable {replies : List Byte}

/-- R143: while DISCARD is 0 every reply is queued. -/
theorem Device.Traces.engine (h : d.Traces replies buf w) (he : d.EngineStep cfg w d' w') :
    d'.Traces replies buf w' := by
  obtain ⟨hdiscard, htrace⟩ := h
  cases he with
  | launch _ => rcases d.launch_cases cfg with ⟨b, q, -, he⟩ | ⟨-, he⟩ <;> rw [he] <;> exact ⟨hdiscard, htrace⟩
  | complete r _ =>
    rw [show d.complete r = { d.pushRx r with busy := false } from if_pos hdiscard]
    refine ⟨hdiscard, ?_⟩
    rw [List.map_append, htrace, List.append_assoc]
    rfl
  | apart => exact ⟨hdiscard, htrace⟩

/-- A byte moved from the receive FIFO to the end of the buffer keeps its place among the replies. -/
theorem Device.Traces.take {b : Byte} {q : List Byte} (h : d.Traces replies buf w) (hq : d.rxq = b :: q) :
    (d.popRx q).Traces replies (buf ++ [b]) w := by
  obtain ⟨hdiscard, htrace⟩ := h
  refine ⟨hdiscard, ?_⟩
  rw [htrace, hq]
  simp only [List.append_assoc, List.singleton_append, Device.popRx_rxq]

theorem ReadVars.Move.traces {v v' : ReadVars} (h : v.Move d pc d' pc' v') (ht : d.Traces replies v.buf w) :
    d'.Traces replies v'.buf w := by
  cases h with
  | lenHi | feed | head | poll | pass => exact ht
  | copy b q hq _ => exact ht.take hq
  | endPass b q hq _ _ => exact ht.take hq

theorem ReadVars.Return.traces {v : ReadVars} (h : v.Return d pc d' buf) (ht : d.Traces replies v.buf w) :
    d'.Traces replies buf w := by
  cases h with
  | empty _ => exact ht
  | endPass b q hq _ _ => exact ht.take hq

theorem spiReadStep_traces {v : ReadVars} (ha : s.Attached) (hp : s.env.boardPresent = true)
    (ht : s.ReadTrace replies v.buf) (h : spiReadStep pc v s = .next t) :
    (∃ pc' v', t.host.app = .spiRead pc' v' ∧ t.ReadTrace replies v'.buf) ∨
      (t.host.app = .idle ∧ ∃ buf, t.host.result = .bytes buf ∧ t.ReadTrace replies buf) ∨
      (t.host.app = .idle ∧ s.cfg.retryBound ≠ none ∧ ∃ n, t.host.result = .incomplete n) := by
  have ht : s.dev.Traces replies v.buf s.wire := ht
  cases spiReadStep_transfers ha hp h with
  | goes hgo _ hwire =>
    obtain ⟨pc', v', happ', hmove⟩ := hgo
    exact .inl ⟨pc', v', happ', show t.dev.Traces replies v'.buf t.wire from hwire ▸ hmove.traces ht⟩
  | returns hret hidle _ hwire =>
    obtain ⟨buf, hresult, hret⟩ := hret
    exact .inr (.inl ⟨hidle, buf, hresult, show t.dev.Traces replies buf t.wire from hwire ▸ hret.traces ht⟩)
  | givesUp hbound hidle n hresult => exact .inr (.inr ⟨hidle, hbound, n, hresult⟩)

/-! ## `spi_read1`, run (R151) -/

/-- The board of a quiet engine after `spi_read1` has loaded FEED with one dummy byte (R63, R127). -/
def Device.fed1 (d : Device) : Device := { d with lenHi := 0, feed := 1 }

section Steps

variable (h : s.Driving) (hidle : s.host.handler = .idle) (d : Device) (x : Byte)

include h hidle

theorem appStep_read1_lenHi (hquiet : d.quiet = true) :
    runEvent .appStep (s.midway d x (.spiRead1 .lenHi)) =
      .next (s.midway { d with lenHi := 0 } x (.spiRead1 .feed)) := by
  rw [appStep_midway hidle]
  exact (wr_wrLenHi (h.midway _ _ _) _ _).trans (if_pos hquiet)

theorem appStep_read1_feed (hquiet : d.quiet = true) (hlen : d.lenHi = 0) :
    runEvent .appStep (s.midway d x (.spiRead1 .feed)) = .next (s.midway { d with feed := 1 } x (.spiRead1 .head)) := by
  have hone : transferCount d.lenHi 0x01 = 1 := by rw [hlen]; decide
  rw [appStep_midway hidle, ← hone]
  exact (wr_wrTxFeed (h.midway _ _ _) _ _).trans (if_pos hquiet)

theorem appStep_read1_head :
    runEvent .appStep (s.midway d x (.spiRead1 .head)) =
      .next (s.midway d d.rxHead (.spiRead1 (.spin d.rxHead 0))) := by
  rw [appStep_midway hidle]
  exact rd_rdRxHead (h.midway _ _ _) fun hd t => .next (t.goto (.spiRead1 (.spin hd 0)))

theorem appStep_read1_spin {hd : Byte} (hreply : d.rxTail ≠ hd) (n : Nat) :
    runEvent .appStep (s.midway d x (.spiRead1 (.spin hd n))) = .next (s.midway d d.rxTail (.spiRead1 .data)) := by
  rw [appStep_midway hidle]
  exact (rd_rdRxTail (h.midway _ _ _) fun tl t =>
    if tl = hd then pollAgain t n 0 fun p => .spiRead1 (.spin hd p)
    else .next (t.goto (.spiRead1 .data))).trans (if_neg hreply)

theorem appStep_read1_data {b : Byte} {q : List Byte} (hq : d.rxq = b :: q) :
    runEvent .appStep (s.midway d x (.spiRead1 .data)) =
      .next ((s.midway (d.popRx q) b .idle).finish (.byte b)) := by
  rw [appStep_midway hidle]
  exact rd_rdFifoData_cons (s := s.midway d x (.spiRead1 .data)) (h.midway _ _ _) hq fun b t => .next (t.finish (.byte b))

/-- R151: FEED is loaded with one dummy byte, and RX_HEAD read. -/
theorem runEvents_read1_feed (hquiet : d.quiet = true) :
    runEvents (.appStep :: .appStep :: .appStep :: es) (s.midway d x (.spiRead1 .lenHi)) =
      runEvents es (s.midway d.fed1 d.rxHead (.spiRead1 (.spin d.rxHead 0))) := by
  rw [runEvents_of_next (appStep_read1_lenHi h hidle d x hquiet),
    runEvents_of_next (appStep_read1_feed h hidle { d with lenHi := 0 } x hquiet rfl)]
  exact runEvents_of_next (appStep_read1_head h hidle d.fed1 x)

end Steps

/-- `spi_read1()` has been called and fed one dummy byte, and waits for the reply. -/
def State.fed1 (s : State) : State :=
  s.midway s.dev.fed1 s.dev.rxHead (.spiRead1 (.spin s.dev.rxHead 0))

/-- R151: the poll finds the reply, and the data read returns it. -/
theorem runEvents_read1_return {hd x b : Byte} {q : List Byte} (h : s.Driving) (hidle : s.host.handler = .idle)
    (hreply : d.rxTail ≠ hd) (hq : d.rxq = b :: q) (n : Nat) :
    runEvents [.appStep, .appStep] (s.midway d x (.spiRead1 (.spin hd n))) =
      .next ((s.midway (d.popRx q) b .idle).finish (.byte b)) := by
  rw [runEvents_of_next (appStep_read1_spin h hidle d x hreply n), runEvents_singleton,
    appStep_read1_data h hidle d d.rxTail hq]

end Machine

open Machine

/-- Settles O30: FEED is loaded with one dummy byte; one exchange uses it up and queues the reply; the poll finds it. -/
theorem singleByteReadReturnsTheReply : Obligations.SingleByteReadReturnsTheReply := by
  intro s r h hquiet hrxq hempty
  obtain ⟨hfeed, hdiscard, hq, hidle⟩ := Device.quiet_iff.mp hquiet
  have hroom : s.fed1.dev.rxq.length < s.fed1.cfg.fifoDepth := by
    rw [show s.fed1.dev.rxq = [] from hrxq]
    exact (Params.wf_depth h.attached.params).1
  have hone : s.fed1.dev.feed ≠ 0 := show (1 : Count) ≠ 0 by decide
  have hqueued : (s.fed1.fed r).dev.rxq = [r] := congrArg (· ++ [r]) hrxq
  have hreply : (s.fed1.fed r).dev.rxTail ≠ s.dev.rxHead := by
    show s.dev.rxTail + 1 ≠ s.dev.rxHead
    rw [hempty]
    bv_omega
  have hdrive : ({ s with wire := s.wire ++ [⟨s.dev.ss, s.cfg.dummyTxByte, r⟩] } : State).Driving :=
    ⟨⟨h.attached.params, h.attached.base, h.attached.context⟩, h.present, h.bound, h.probed⟩
  rw [runEvents_of_next (call_midway h rfl), runEvents_read1_feed h.driving h.ready.1 s.dev _ hquiet]
  refine (runEvents_fed (s := s.fed1) hidle hq hdiscard hone hroom).trans ?_
  refine (runEvents_read1_return hdrive h.ready.1 hreply hqueued 0).trans ?_
  simp [State.fed1, State.fed, State.midway, Device.fed1, Device.popRx, hfeed, hrxq]
  rfl

/-- Settles O34: the procedure's own step makes one of `ReadMove`'s moves, returns with the last of them or gives up; any
other step is the engine's or reaches neither FIFO (`step_split`). The trace law goes by `spi_read`'s own steps. -/
theorem readBufferIsTheRepliesInOrder : Obligations.ReadBufferIsTheRepliesInOrder := by
  refine ⟨fun s size h hquiet hrxq => ?_, fun s h hquiet hrxq => ?_,
    fun s base size rest hagenda ha hp hb hprobed hidle hr happ => ?_, fun s t base size ha hp hm hr h => ?_,
    fun s t replies pc v ha hp happ htrace h => ?_⟩
  · exact call_reading h hquiet hrxq rfl (readEntry_reading size) (readEntry_offPass size)
  · exact call_reading h hquiet hrxq rfl rfl rfl
  · rw [step_appStep hagenda hidle]
    exact procStep_feeds (s := { s with agenda := rest }) ⟨⟨ha.params, ha.base, ha.context⟩, hp, hb, hprobed⟩ hr happ
  · rcases step_split ha h with ⟨agenda, draws, -, hproc⟩ | hfree | hbeside
    · exact procStep_keeps_reading (s := { s with agenda := agenda, draws := draws })
        ⟨ha.params, ha.base, ha.context⟩ hp hm hr hproc
    · obtain ⟨pc, buf, left, hreading, -⟩ := reading_iff.mp hr
      rw [hfree.idle] at hreading
      cases hreading
    · exact .inl (hbeside.reading hr)
  · rcases step_split ha h with ⟨agenda, draws, -, hproc⟩ | hfree | hbeside
    · rw [procStep, show ({ s with agenda := agenda, draws := draws } : State).host.app = .spiRead pc v from happ] at hproc
      exact spiReadStep_traces (s := { s with agenda := agenda, draws := draws })
        ⟨ha.params, ha.base, ha.context⟩ hp htrace hproc
    · exact absurd (happ.symm.trans hfree.idle) nofun
    · have htrace : s.dev.Traces replies v.buf s.wire := htrace
      exact .inl ⟨pc, v, hbeside.app.trans happ, htrace.engine hbeside.engine⟩

end Sys2Proof
end

section
/-! The interrupt channel (O35 to O37, O39 to O41): the writes of the latch and of its arming, a pin change, the
handler's operations, and the consumer's wait and snapshot. -/

namespace Sys2Proof

namespace Machine

variable {cfg : Params} {d : Device} {s : State} {k : State → Out}

/-! ## The latch and its arming (R24, R173, R174, R176) -/

theorem Device.irq_iff : d.irq = true ↔ d.fired &&& d.armed ≠ 0 := bne_iff_ne

/-- R24: with the latch clear IRQ is low, whatever ARMED is. -/
theorem Device.irq_of_fired_eq_zero (h : d.fired = 0) : d.irq = false := by
  rw [← Bool.not_eq_true, Device.irq_iff, not_not, h]
  exact BitVec.zero_and

theorem exec_wrIntFired_present (h : s.env.boardPresent = true) (x : Byte) :
    exec (.wrIntFired x) s = .next (s.setDev { s.dev with fired := 0 }) := by
  rw [exec, execWrIntFired, plainWrite, writeAccess_present h]

theorem armedLegal_iff {x : Byte} : armedLegal x = true ↔ x = 0x00 ∨ x = 0xFF := by
  simp only [armedLegal, Bool.or_eq_true, beq_iff_eq]; rfl

theorem exec_wrIntArmed_legal {x : Byte} (h : s.env.boardPresent = true) (hx : armedLegal x = true) :
    exec (.wrIntArmed x) s = .next (s.setDev { s.dev with armed := x }) := by
  rw [exec, execWrIntArmed, writeAccess_present h, if_pos hx]

theorem exec_wrIntArmed_reserved {x : Byte} (h : s.env.boardPresent = true) (hx : ¬armedLegal x = true) :
    exec (.wrIntArmed x) s = .refused .armedValueReserved := by
  rw [exec, execWrIntArmed, writeAccess_present h, if_neg hx]

/-! ## A pin change (R177) -/

theorem Device.captures_iff : d.captures cfg = true ↔ d.armed = 0xFF ∨ cfg.latchWhenDisarmed = true := by
  rw [Device.captures, Bool.or_eq_true, beq_iff_eq]

theorem Device.pinChange_captured (h : d.captures cfg = true) (p : Pin) :
    d.pinChange cfg p = { d.togglePin p with fired := d.fired ||| pinMask cfg p } :=
  if_pos h

theorem Device.pinChange_uncaptured (h : ¬d.captures cfg = true) (p : Pin) : d.pinChange cfg p = d.togglePin p :=
  if_neg h

/-- Captured or not, the level of the pin that changes is toggled. -/
theorem Device.pinChange_level (cfg : Params) (d : Device) (p : Pin) :
    (p = .cd → (d.pinChange cfg p).pinCd = !d.pinCd) ∧ (p = .ext → (d.pinChange cfg p).pinExt = !d.pinExt) := by
  by_cases h : d.captures cfg = true
  · rw [Device.pinChange_captured h]
    exact ⟨fun hp => hp ▸ rfl, fun hp => hp ▸ rfl⟩
  · rw [Device.pinChange_uncaptured h]
    exact ⟨fun hp => hp ▸ rfl, fun hp => hp ▸ rfl⟩

theorem runEvent_pinChange (p : Pin) (s : State) :
    runEvent (.pinChange p) s = .next (s.setDev (s.dev.pinChange s.cfg p)) := rfl

/-! ## The handler's operations (R180, R248) -/

/-- The handler has read the latch into `lastFired` and is about to clear it. -/
def State.latchRead (s : State) : State :=
  (s.answer s.dev.fired).setHost { s.host with
    ictx := { s.host.ictx with lastFired := s.dev.fired }
    handler := .clearFired }

/-- The handler has cleared the latch and is about to raise the signal. -/
def State.latchCleared (s : State) : State :=
  (s.setDev { s.dev with fired := 0 }).setHost { s.host with handler := .raiseSignal }

/-- The handler has raised the wake signal and returned. -/
def State.handlerReturned (s : State) : State :=
  s.setHost { s.host.raise s.host.ictx.signalId with handler := .idle }

/-- R29: the handler of an attached driver reaches the operation it means. -/
theorem hostAccess_context (ha : s.Attached) (i : Instr) : hostAccess s.host.ictx.boardAddr i s = exec i s := by
  rw [ha.context, hostAccess_attached ha.params]

theorem handlerStep_readFired (ha : s.Attached) (hp : s.env.boardPresent = true) (hh : s.host.handler = .readFired) :
    runEvent .handlerStep s = .next s.latchRead := by
  simp only [runEvent, handlerStep, hh, hostAccess_context ha, execRdIntFired_present hp]
  rfl

theorem handlerStep_clearFired (ha : s.Attached) (hp : s.env.boardPresent = true)
    (hh : s.host.handler = .clearFired) : runEvent .handlerStep s = .next s.latchCleared := by
  simp only [runEvent, handlerStep, hh, hostAccess_context ha, exec_wrIntFired_present hp]
  rfl

theorem handlerStep_raiseSignal (hh : s.host.handler = .raiseSignal) :
    runEvent .handlerStep s = .next s.handlerReturned := by
  simp only [runEvent, handlerStep, hh]
  rfl

/-- R180: what is left of the handler once it has read the latch. -/
theorem runEvents_handler_rest (ha : s.Attached) (hp : s.env.boardPresent = true)
    (hh : s.host.handler = .clearFired) :
    runEvents [.handlerStep, .handlerStep] s = .next s.latchCleared.handlerReturned := by
  rw [runEvents_of_next (handlerStep_clearFired ha hp hh), runEvents_singleton]
  exact handlerStep_raiseSignal rfl

theorem State.Attached.latchRead (ha : s.Attached) : s.latchRead.Attached := ⟨ha.params, ha.base, ha.context⟩

theorem State.Attached.setDev (ha : s.Attached) (d : Device) : (s.setDev d).Attached :=
  ⟨ha.params, ha.base, ha.context⟩

/-! ## The consumer's wait and snapshot (R6, R181, R182) -/

/-- `Wait(signalId)` has returned, and the signal is cleared. -/
def State.woken (s : State) : State := s.setHost (s.host.clear s.host.ictx.signalId)

theorem waitStep_set (h : s.host.ictx.signalId ∈ s.host.signals) : waitStep s k = k s.woken := if_pos h

theorem waitStep_blocked (h : s.host.ictx.signalId ∉ s.host.signals) :
    waitStep s k = .refused (.notEnabled .appStep) := if_neg h

theorem State.midway_self (s : State) (a : AppState) : s.midway s.dev s.readData a = s.goto a := rfl

theorem State.Driving.goto (h : s.Driving) (a : AppState) : (s.goto a).Driving := h.midway s.dev s.readData a

theorem State.Driving.woken (h : s.Driving) : s.woken.Driving :=
  ⟨⟨h.attached.params, h.attached.base, h.attached.context⟩, h.present, h.bound, h.probed⟩

theorem appStep_goto (hidle : s.host.handler = .idle) (a : AppState) :
    runEvent .appStep (s.goto a) = procStep (s.goto a) :=
  appStep_of_idle (s := s.goto a) hidle

theorem procStep_waitSignal (s : State) :
    procStep (s.goto .waitSignal) = waitStep (s.goto .waitSignal) fun t => .next (t.finish .done) := rfl

theorem procStep_consume (s : State) :
    procStep (s.goto .consume) = waitStep (s.goto .consume) fun t => .next (t.goto (.resetInterrupt none)) := rfl

theorem wr_wrIntFired (h : s.Driving) (x : Byte) (k : State → Out) :
    wr (.wrIntFired x) s k = k (s.setDev { s.dev with fired := 0 }) := by
  rw [wr_driving h rfl, exec_wrIntFired_present h.present]; rfl

/-- R181: the snapshot is taken first; the write of the latch then leaves it alone. -/
theorem runEvents_resetInterrupt (h : s.Driving) (hidle : s.host.handler = .idle) :
    runEvents [.appStep, .appStep] (s.goto (.resetInterrupt none)) =
      .next ((s.setDev { s.dev with fired := 0 }).finish (.byte s.host.ictx.lastFired)) := by
  have hsnapshot : runEvent .appStep (s.goto (.resetInterrupt none)) =
      .next (s.goto (.resetInterrupt (some s.host.ictx.lastFired))) := appStep_goto hidle _
  rw [runEvents_of_next hsnapshot, runEvents_singleton, appStep_goto hidle]
  exact wr_wrIntFired (h.goto _) _ _

/-- R182: the consumer's wait goes on to `resetInterrupt`. -/
theorem appStep_consume (hidle : s.host.handler = .idle) (h : s.host.ictx.signalId ∈ s.host.signals) :
    runEvent .appStep (s.goto .consume) = .next (s.woken.goto (.resetInterrupt none)) := by
  rw [appStep_goto hidle, procStep_consume]
  exact waitStep_set (s := s.goto .consume) h

end Machine

open Machine

/-- Settles O35: the write does not look at its data, and a clear latch leaves IRQ low. -/
theorem intFiredWriteClearsTheLatch : Obligations.IntFiredWriteClearsTheLatch :=
  ⟨decode_word_wrIntFired, fun _ d hpresent =>
    ⟨exec_wrIntFired_present hpresent d, Device.irq_of_fired_eq_zero rfl⟩⟩

/-- Settles O36: the two sides of the guard. -/
theorem intArmedWriteStoresLegalValues : Obligations.IntArmedWriteStoresLegalValues := by
  refine ⟨decode_word_wrIntArmed, fun s d hpresent => ?_⟩
  rw [← armedLegal_iff]
  exact ⟨fun hlegal => ⟨exec_wrIntArmed_legal hpresent hlegal, Device.irq_iff⟩, exec_wrIntArmed_reserved hpresent⟩

/-- Settles O37: the step writes the device `Device.pinChange` gives, captured or not. -/
theorem pinChangeSetsTheLatch : Obligations.PinChangeSetsTheLatch := by
  intro s captured
  simp only [captured, ← Device.captures_iff, runEvent_pinChange]
  refine ⟨fun hcaptured => ?_, fun huncaptured => ?_⟩
  · rw [Device.pinChange_captured hcaptured, Device.pinChange_captured hcaptured]
    exact ⟨rfl, rfl⟩
  · rw [Device.pinChange_uncaptured huncaptured, Device.pinChange_uncaptured huncaptured]
    exact ⟨rfl, rfl⟩

/-- Settles O39: the handler reads the latch; the rest clears it, raises the signal and returns. -/
theorem handlerCapturesClearsAndSignals : Obligations.HandlerCapturesClearsAndSignals := by
  intro s ha hpresent hhandler
  rw [runEvents_of_next (handlerStep_readFired ha hpresent hhandler)]
  exact runEvents_handler_rest ha.latchRead hpresent rfl

/-- Settles O40: the pin change comes after the read, which is all `lastFired` is written from, and before the write,
which clears the latch whatever it holds. -/
theorem edgeBetweenReadAndClearIsLost : Obligations.EdgeBetweenReadAndClearIsLost := by
  intro s p ha hpresent hhandler
  obtain ⟨hcd, hext⟩ := Device.pinChange_level s.cfg s.dev p
  rw [runEvents_of_next (handlerStep_readFired ha hpresent hhandler), runEvents_of_next (runEvent_pinChange p _)]
  exact ⟨_, runEvents_handler_rest (ha.latchRead.setDev _) hpresent rfl, rfl, rfl, Device.irq_of_fired_eq_zero rfl, rfl,
    hcd, hext⟩

/-- Settles O41: `waitStep` on its two sides, `runEvents_resetInterrupt`, and one after the other. -/
theorem consumerWaitsThenTakesTheSnapshot : Obligations.ConsumerWaitsThenTakesTheSnapshot := by
  refine ⟨fun s h => ?_, fun s hr hset => ?_, fun s hr hclear => ?_, fun s h hset => ?_⟩
  · rw [runEvents_of_next (call_midway h rfl), State.midway_self]
    exact runEvents_resetInterrupt h.driving h.ready.1
  · exact runEvents_call_step hr rfl ((procStep_waitSignal s).trans (waitStep_set (s := s.goto .waitSignal) hset))
  · exact runEvents_call_step hr rfl ((procStep_waitSignal s).trans (waitStep_blocked (s := s.goto .waitSignal) hclear))
  · rw [runEvents_of_next (call_midway h rfl), State.midway_self,
      runEvents_of_next (appStep_consume h.ready.1 hset)]
    exact runEvents_resetInterrupt h.driving.woken h.ready.1

end Sys2Proof
end

section
/-! The tick counter and the procedures that read it (O44 to O48): the tick port's operations, what a step does to TICK,
one reading of `readTicks` and of `delay` while the counter runs, and what a step can do to a running `delay`. -/

namespace Sys2Proof

namespace Machine

variable {cfg : Params} {d d' : Device} {s t : State} {e : Event} {es : List Event}

/-! ## The tick port's operations (R201 to R204) -/

/-- The three tick bytes are latched (R201). -/
def Device.latch (d : Device) : Device := { d with tlatch := d.tick, tlatched := true }

/-- The latch is released (R203). -/
def Device.unlatch (d : Device) : Device := { d with tlatched := false }

theorem exec_rdTickHi (s : State) :
    exec .rdTickHi s = .next ((s.setDev s.dev.latch).answer (tickHigh s.dev.tick)) := rfl

theorem exec_rdTickMid (s : State) : exec .rdTickMid s = .next (s.answer (tickMiddle s.dev.tickSeen)) := rfl

theorem exec_rdTickLo (s : State) :
    exec .rdTickLo s = .next ((s.setDev s.dev.unlatch).answer (tickLow s.dev.tickSeen)) := rfl

theorem Device.tickSeen_latched (h : d.tlatched = true) : d.tickSeen = d.tlatch := if_pos h

/-- R204: a TICKPORT selector with `t = 3` is refused, on a present board as on an absent one. -/
theorem runCycle_of_three {v : BitVec 3} (x : Byte) (h : v.extractLsb' 0 2 = 3#2) :
    runCycle ⟨.tickport v, x⟩ s = .refused .tickWrite := by
  rw [runCycle, decode_tickport_of_three _ x h]
  rfl

/-! ## What a step can do to TICK (R28, R200) -/

theorem Device.AccessStep.tick_eq (h : d.AccessStep cfg d') : d'.tick = d.tick := by
  cases h <;> rfl

theorem Device.launch_tick (cfg : Params) (d : Device) : (d.launch cfg).tick = d.tick := by
  rcases d.launch_cases cfg with ⟨b, q, -, e⟩ | ⟨-, e⟩
  · rw [e]; rfl
  · rw [e]

theorem Device.complete_tick (d : Device) (r : Byte) : (d.complete r).tick = d.tick := by
  rcases d.complete_cases r with ⟨-, e⟩ | ⟨-, e⟩
  · rw [e]; rfl
  · rw [e]

theorem Device.pinChange_tick (cfg : Params) (d : Device) (p : Pin) : (d.pinChange cfg p).tick = d.tick := by
  rw [Device.pinChange_frame]

/-- Of all the steps of the board, only the counter's own changes TICK. -/
theorem Device.AnyStep.tick_cases (h : d.AnyStep cfg d') : d'.tick = d.tick ∨ d'.tick = d.tick + 1 := by
  cases h with
  | access h => exact .inl h.tick_eq
  | launch _ => exact .inl (Device.launch_tick cfg d)
  | complete r _ => exact .inl (Device.complete_tick d r)
  | pin p => exact .inl (Device.pinChange_tick cfg d p)
  | tick => exact .inr rfl

/-! ## The counter's steps (R200) -/

/-- The counter has been incremented `n` times. -/
def Device.ticked (d : Device) (n : Nat) : Device := { d with tick := d.tick + BitVec.ofNat 24 n }

theorem Device.ticked_zero (d : Device) : d.ticked 0 = d := by
  rw [Device.ticked, BitVec.add_zero]

theorem Device.ticked_ticked (d : Device) (n m : Nat) : (d.ticked n).ticked m = d.ticked (n + m) := by
  simp only [Device.ticked, BitVec.ofNat_add, BitVec.add_assoc]

theorem runEvent_tickInc (s : State) : runEvent .tickInc s = .next (s.setDev (s.dev.ticked 1)) := rfl

/-- Increments before the rest of a run, by induction on their number. -/
theorem runEvents_tickInc (n : Nat) :
    ∀ s : State, runEvents (List.replicate n .tickInc ++ es) s = runEvents es (s.setDev (s.dev.ticked n)) := by
  induction n with
  | zero => intro s; rw [Device.ticked_zero]; rfl
  | succ n ih =>
    intro s
    rw [List.replicate_succ, List.cons_append, runEvents_of_next (runEvent_tickInc s), ih,
      State.setDev_dev, Device.ticked_ticked, Nat.add_comm]
    rfl

/-! ## One reading of the counter (R205) -/

/-- R205: the three bytes of a count make that count. -/
theorem tickValue_parts (v : Tick) : tickValue (tickHigh v) (tickMiddle v) (tickLow v) = v := by
  have hmiddle : tickHigh v ++ tickMiddle v = v.extractLsb' 8 16 :=
    BitVec.extractLsb'_append_extractLsb'_eq_extractLsb' rfl
  have hlow : v.extractLsb' 8 16 ++ tickLow v = v.extractLsb' 0 24 :=
    BitVec.extractLsb'_append_extractLsb'_eq_extractLsb' rfl
  rw [tickValue, hmiddle, hlow, BitVec.extractLsb'_eq_self]

/-- A step of a reading goes on to the next read, or hands over the value the three bytes make. -/
theorem ticksStep_next {pc : TickPc} {next : TickPc → AppState} {k : Tick → State → Out}
    (h : ticksStep pc s next k = .next t) :
    (∃ pc' u, t = State.goto u (next pc')) ∨
      ∃ hi mid u, pc = .lo hi mid ∧ k (tickValue hi mid u.readData) u = .next t := by
  cases pc with
  | hi =>
    obtain ⟨-, u, -, hk⟩ := rd_next (k := fun x v => .next (v.goto (next (.mid x)))) h
    exact .inl ⟨_, _, (Host.Outcome.next.inj hk).symm⟩
  | mid hi =>
    obtain ⟨-, u, -, hk⟩ := rd_next (k := fun x v => .next (v.goto (next (.lo hi x)))) h
    exact .inl ⟨_, _, (Host.Outcome.next.inj hk).symm⟩
  | lo hi mid =>
    obtain ⟨-, u, -, hk⟩ := rd_next (k := fun x v => k (tickValue hi mid x) v) h
    exact .inr ⟨hi, mid, _, rfl, (State.noteIssued_readData u .rdTickLo).symm ▸ hk⟩

/-- One reading of the counter, with `n` increments after its HI read and `m` after its MID read. -/
def readingEvents (n m : Nat) : List Event :=
  Event.appStep ::
    (List.replicate n Event.tickInc ++ Event.appStep :: (List.replicate m Event.tickInc ++ [Event.appStep]))

theorem readingEvents_eq (n m : Nat) :
    [Event.appStep] ++ List.replicate n Event.tickInc ++ [Event.appStep] ++ List.replicate m Event.tickInc
      ++ [Event.appStep] = readingEvents n m := by
  simp only [readingEvents, List.cons_append, List.nil_append, List.append_assoc]

theorem cons_readingEvents_eq (e : Event) (n m : Nat) :
    [e, .appStep] ++ List.replicate n Event.tickInc ++ [Event.appStep] ++ List.replicate m Event.tickInc
      ++ [Event.appStep] = e :: readingEvents n m := by
  simp only [readingEvents, List.cons_append, List.nil_append, List.append_assoc]

/-- The board after a reading that began on `d`, the counter having run on by `n`. -/
def Device.hasRead (d : Device) (n : Nat) : Device :=
  { d with tick := d.tick + BitVec.ofNat 24 n, tlatch := d.tick, tlatched := false }

/-- After a reading that began in `s`; where its procedure then goes is left open. -/
def State.hasRead (s : State) (n : Nat) : State := (s.setDev (s.dev.hasRead n)).answer (tickLow s.dev.tick)

section Steps

variable {next : TickPc → AppState} {k : Tick → State → Out} (h : s.Driving) (hidle : s.host.handler = .idle)
  (hproc : ∀ u pc, u.host.app = next pc → procStep u = ticksStep pc u next k) (d : Device) (x : Byte)

include h hidle hproc

theorem appStep_tickHi :
    runEvent .appStep (s.midway d x (next .hi)) =
      .next (s.midway d.latch (tickHigh d.tick) (next (.mid (tickHigh d.tick)))) := by
  rw [appStep_midway hidle, hproc _ .hi rfl, ticksStep, rd_driving (h.midway _ _ _) rfl, exec_rdTickHi]
  rfl

theorem appStep_tickMid (hl : d.tlatched = true) (hi : Byte) :
    runEvent .appStep (s.midway d x (next (.mid hi))) =
      .next (s.midway d (tickMiddle d.tlatch) (next (.lo hi (tickMiddle d.tlatch)))) := by
  rw [appStep_midway hidle, hproc _ (.mid hi) rfl, ticksStep, rd_driving (h.midway _ _ _) rfl, exec_rdTickMid,
    Device.tickSeen_latched (d := (s.midway d x _).dev) hl]
  rfl

theorem appStep_tickLo (hl : d.tlatched = true) (hi mid : Byte) :
    runEvent .appStep (s.midway d x (next (.lo hi mid))) =
      k (tickValue hi mid (tickLow d.tlatch)) (s.midway d.unlatch (tickLow d.tlatch) (next (.lo hi mid))) := by
  rw [appStep_midway hidle, hproc _ (.lo hi mid) rfl, ticksStep, rd_driving (h.midway _ _ _) rfl, exec_rdTickLo,
    Device.tickSeen_latched (d := (s.midway d x _).dev) hl]
  rfl

/-- R205: a reading gives its procedure the count at its HI read, which the latch holds from there on. -/
theorem runEvents_reading (n m : Nat) :
    runEvents (readingEvents n m) (s.midway d x (next .hi)) =
      k d.tick (s.midway (d.hasRead (n + m)) (tickLow d.tick)
        (next (.lo (tickHigh d.tick) (tickMiddle d.tick)))) := by
  have hmid := appStep_tickMid h hidle hproc (d.latch.ticked n) (tickHigh d.tick) rfl (tickHigh d.tick)
  have hlo := appStep_tickLo h hidle hproc ((d.latch.ticked n).ticked m) (tickMiddle d.tick) rfl
    (tickHigh d.tick) (tickMiddle d.tick)
  rw [readingEvents, runEvents_of_next (appStep_tickHi h hidle hproc d x), runEvents_tickInc]
  refine (runEvents_of_next hmid).trans ?_
  rw [runEvents_tickInc, runEvents_singleton]
  refine hlo.trans ?_
  rw [Device.ticked_ticked]
  exact congrArg (k · _) (tickValue_parts d.tick)

end Steps

/-- The three reads of `readTicks` (R205). -/
theorem procStep_readTicks (u : State) (pc : TickPc) (happ : u.host.app = .readTicks pc) :
    procStep u = ticksStep pc u .readTicks fun v t => .next (t.finish (.ticks (v.zeroExtend 32))) := by
  rw [procStep, happ]
  rfl

/-- R205: `readTicks`, called and run. -/
theorem runEvents_readTicks (h : s.Operational) (n m : Nat) :
    runEvents (.call .application .readTicks :: readingEvents n m) s =
      .next ((s.hasRead (n + m)).finish (.ticks (s.dev.tick.zeroExtend 32))) := by
  rw [runEvents_of_next (call_midway h rfl)]
  exact runEvents_reading h.driving h.ready.1 procStep_readTicks s.dev s.readData n m

/-! ## `delay` (R206, R207) -/

theorem procStep_delay {ticks : Nat} {dl : Option Tick} {pc : TickPc} (happ : s.host.app = .delay ticks dl pc) :
    procStep s = delayStep ticks dl pc s := by
  rw [procStep, happ]

/-- The first reading sets the deadline. -/
theorem procStep_delay_first (ticks : Nat) (u : State) (pc : TickPc) (happ : u.host.app = .delay ticks none pc) :
    procStep u = ticksStep pc u (.delay ticks none) fun v t =>
      .next (t.goto (.delay ticks (some (v + BitVec.ofNat 24 ticks)) .hi)) :=
  procStep_delay happ

/-- A later reading is held against it. -/
theorem procStep_delay_later (ticks : Nat) (deadline : Tick) (u : State) (pc : TickPc)
    (happ : u.host.app = .delay ticks (some deadline) pc) :
    procStep u = ticksStep pc u (.delay ticks (some deadline)) fun v t =>
      if delayOver v deadline then .next (t.finish .done) else .next (t.goto (.delay ticks (some deadline) .hi)) :=
  procStep_delay happ

/-- R206: the call and the first reading. -/
theorem runEvents_delay_first {ticks : Nat} (h : s.Operational) (hticks : ticks < 2 ^ 23) (n m : Nat) :
    runEvents (.call .application (.delay ticks) :: readingEvents n m) s =
      .next ((s.hasRead (n + m)).goto (.delay ticks (some (s.dev.tick + BitVec.ofNat 24 ticks)) .hi)) := by
  have henter : enter (.delay ticks) s = probedCall s (.delay ticks none .hi) := if_pos hticks
  rw [runEvents_of_next (call_midway h henter)]
  exact runEvents_reading h.driving h.ready.1 (procStep_delay_first ticks) s.dev s.readData n m

/-- R206: a later reading. -/
theorem runEvents_delay_later {ticks : Nat} {deadline : Tick} (h : s.Driving) (hidle : s.host.handler = .idle)
    (happ : s.host.app = .delay ticks (some deadline) .hi) (n m : Nat) :
    runEvents (readingEvents n m) s =
      if delayOver s.dev.tick deadline then .next ((s.hasRead (n + m)).finish .done)
      else .next ((s.hasRead (n + m)).goto (.delay ticks (some deadline) .hi)) := by
  have hreading := runEvents_reading h hidle (procStep_delay_later ticks deadline) s.dev s.readData n m
  have hstart : s.midway s.dev s.readData (.delay ticks (some deadline) .hi) = s := by rw [← happ]; rfl
  rw [hstart] at hreading
  exact hreading

/-- R207: the signed reading of a difference is not negative in the lower half of the 24-bit numbers. -/
theorem delayOver_iff {now deadline : Tick} : delayOver now deadline = true ↔ (now - deadline).toNat < 2 ^ 23 := by
  rw [delayOver, decide_eq_true_eq, sint24, BitVec.toInt_eq_toNat_cond]
  split <;> omega

/-- R206: the test passes exactly from `ticks` to `ticks + 2^23` after `start`. -/
theorem delayOver_window {start now : Tick} {ticks : Nat} (h : ticks < 2 ^ 23) :
    delayOver now (start + BitVec.ofNat 24 ticks) = true ↔
      ticks ≤ (now - start).toNat ∧ (now - start).toNat < ticks + 2 ^ 23 := by
  rw [delayOver_iff]
  bv_omega

/-- What a step can do to a running `delay`: leave it before its next read, set its deadline with the first reading, or
end it with a later one that passes the test. -/
inductive State.DelayMoves (t : State) (ticks : Nat) : Option Tick → TickPc → Prop
  | goes (dl : Option Tick) (pc pc' : TickPc) (happ : t.host.app = .delay ticks dl pc') : DelayMoves t ticks dl pc
  | sets (hi mid : Byte)
      (happ : t.host.app = .delay ticks (some (tickValue hi mid t.readData + BitVec.ofNat 24 ticks)) .hi) :
      DelayMoves t ticks none (.lo hi mid)
  | ends (hi mid : Byte) (deadline : Tick) (hover : delayOver (tickValue hi mid t.readData) deadline = true)
      (happ : t.host.app = .idle) (hresult : t.host.result = .done) :
      DelayMoves t ticks (some deadline) (.lo hi mid)

/-- The procedure's own step. -/
theorem procStep_delayMoves {ticks : Nat} {dl : Option Tick} {pc : TickPc} (happ : s.host.app = .delay ticks dl pc)
    (h : procStep s = .next t) : t.DelayMoves ticks dl pc := by
  cases dl with
  | none =>
    rw [procStep_delay_first ticks s pc happ] at h
    rcases ticksStep_next h with ⟨pc', u, rfl⟩ | ⟨hi, mid, u, rfl, hk⟩
    · exact .goes _ _ pc' rfl
    · cases hk; exact .sets hi mid rfl
  | some deadline =>
    rw [procStep_delay_later ticks deadline s pc happ] at h
    rcases ticksStep_next h with ⟨pc', u, rfl⟩ | ⟨hi, mid, u, rfl, hk⟩
    · exact .goes _ _ pc' rfl
    · split at hk
      · next hover => cases hk; exact .ends hi mid deadline hover rfl rfl
      · cases hk; exact .goes _ _ .hi rfl

/-! ## Steps of the other agents -/

theorem handlerStep_app (h : handlerStep s = .next t) : t.host.app = s.host.app := by
  unfold handlerStep at h
  split at h
  · cases h
  · obtain ⟨u, hu, hk⟩ := andThen_next h
    rw [← hostAccess_host hu]
    cases hk; rfl
  · obtain ⟨u, hu, hk⟩ := andThen_next h
    rw [← hostAccess_host hu]
    cases hk; rfl
  · cases h; rfl

/-- R51, R52, R156: while a procedure runs, an event is its step or leaves it where it is. -/
theorem runEvent_inProcedure (hbusy : s.host.app ≠ .idle) (h : runEvent e s = .next t) :
    procStep s = .next t ∨ t.host.app = s.host.app := by
  cases e with
  | appStep => exact .inl (appStep_next h).2
  | bus c => exact absurd (hostLine_fromIdle (c := .ok c) h).idle hbusy
  | access a => exact absurd (hostLine_fromIdle (c := decodeAccess s.placement a) h).idle hbusy
  | call ctx p => exact absurd (startCall_fromIdle h).idle hbusy
  | handlerStep => exact .inr (handlerStep_app h)
  | engLaunch => obtain ⟨-, rfl⟩ := engLaunch_next h; exact .inr rfl
  | engComplete r => obtain ⟨-, rfl⟩ := engComplete_next h; exact .inr rfl
  | pinChange p => cases h; exact .inr rfl
  | tickInc => cases h; exact .inr rfl
  | irqDispatch => obtain ⟨-, rfl⟩ := irqDispatch_next h; exact .inr rfl
  | irqSpurious => obtain ⟨-, rfl⟩ := irqSpurious_next h; exact .inr rfl
  | deadline => obtain ⟨x, rfl⟩ := deadlinePasses_next h; exact .inr rfl
  | signal n => cases h; exact .inr rfl

theorem runEvent_delayMoves {ticks : Nat} {dl : Option Tick} {pc : TickPc} (happ : s.host.app = .delay ticks dl pc)
    (h : runEvent e s = .next t) : t.DelayMoves ticks dl pc := by
  rcases runEvent_inProcedure (by rw [happ]; exact nofun) h with hproc | hsame
  · exact procStep_delayMoves happ hproc
  · exact .goes dl pc pc (hsame.trans happ)

theorem step_delayMoves {ticks : Nat} {dl : Option Tick} {pc : TickPc} (happ : s.host.app = .delay ticks dl pc)
    (h : step s = .next t) : t.DelayMoves ticks dl pc := by
  rcases step_cases h with ⟨e, rest, -, he⟩ | ⟨-, rfl | he⟩
  · exact runEvent_delayMoves (s := { s with agenda := rest }) happ he
  · exact .goes dl pc pc happ
  · exact runEvent_delayMoves (s := s.drawn) happ he

end Machine

open Machine

/-- Settles O44: the three operations, none of which asks for the board; `tickSeen` is the latch where latched. -/
theorem tickReadsLatchAndUnlatch : Obligations.TickReadsLatchAndUnlatch :=
  ⟨decode_word_rdTickHi, decode_word_rdTickMid, decode_word_rdTickLo, fun s _ =>
    ⟨exec_rdTickHi s, exec_rdTickMid s, exec_rdTickLo s⟩⟩

/-- Settles O45: the writes are refused by their meaning, the selectors with `t = 3` by the bus. -/
theorem tickPortWritesRefused : Obligations.TickPortWritesRefused :=
  ⟨fun d => ⟨decode_word_wrTickHi d, decode_word_wrTickMid d, decode_word_wrTickLo d⟩, fun _ d _ =>
    ⟨rfl, rfl, rfl, runCycle_of_three d rfl, runCycle_of_three d rfl⟩⟩

/-- Settles O46: the counter's step is one more, modulo 2^24, and no other step of the board writes TICK. -/
theorem tickCounterOnlyCounts : Obligations.TickCounterOnlyCounts := by
  refine ⟨fun s => ?_, fun s t h => (step_effect h).dev.tick_cases⟩
  rw [BitVec.ofNat_add, BitVec.ofNat_toNat, BitVec.setWidth_eq]
  rfl

/-- Settles O47: a reading, with what `readTicks` makes of it. -/
theorem readTicksReturnsOneInstant : Obligations.ReadTicksReturnsOneInstant := by
  intro s n m h
  rw [cons_readingEvents_eq]
  exact ⟨_, runEvents_readTicks h n m, rfl, rfl, rfl, rfl⟩

/-- Settles O48: the window of the test; the first reading and each later one; and the moves of a running `delay`. -/
theorem delayEndsInItsWindow : Obligations.DelayEndsInItsWindow := by
  refine ⟨fun start now ticks h => delayOver_window h, fun s ticks n m h hticks => ?_,
    fun s ticks n m deadline ha hp hb hprobed hidle happ => ?_, fun s t ticks dl pc happ h => ?_⟩
  · rw [cons_readingEvents_eq]
    exact ⟨_, runEvents_delay_first h hticks n m, rfl, rfl⟩
  · rw [readingEvents_eq, runEvents_delay_later ⟨ha, hp, hb, hprobed⟩ hidle happ]
    by_cases hover : delayOver s.dev.tick deadline = true
    · simp only [if_pos hover]
      exact ⟨_, rfl, rfl, rfl, rfl⟩
    · simp only [if_neg hover]
      exact ⟨_, rfl, rfl, rfl⟩
  · cases step_delayMoves happ h with
    | goes _ _ pc' happ' => exact .inl ⟨pc', happ'⟩
    | sets hi mid happ' => exact .inr (.inl ⟨hi, mid, rfl, rfl, happ'⟩)
    | ends hi mid deadline hover happ' hresult =>
      exact .inr (.inr ⟨hi, mid, deadline, rfl, rfl, hover, happ', hresult⟩)

end Sys2Proof
end

section
/-! Calibration and the deadline timer (O49 to O52): `Derive` as a least count, the rows of R216's table, one
measurement between its two clock samples, and `waitDeadline` with each thing that can end it. -/

namespace Sys2Proof

namespace Machine

variable {cfg : Params} {s : State}

/-! ## `Derive` (R217, R218) -/

/-- `ceilDiv` is the least count whose multiple reaches `a`. -/
theorem ceilDiv_le_iff {a b : Nat} (hb : 0 < b) (k : Nat) : ceilDiv a b ≤ k ↔ a ≤ k * b := by
  have heq : ceilDiv a b = a ⌈/⌉ b := by rw [ceilDiv, Nat.ceilDiv_eq_add_pred_div, Nat.add_sub_assoc hb]
  rw [heq, ceilDiv_le_iff_le_mul hb, Nat.mul_comm]

/-! ## The rows of R216's table -/

theorem judge_unreliable {scale : Nat} {m : Int} (hm : 1000000 < m) :
    judge cfg scale true m = .stop cfg.calFallbackIters .calibrationUnreliable :=
  if_pos ⟨rfl, hm⟩

theorem judge_enough {scale : Nat} {first : Bool} {m : Int} (hm : 10000 ≤ m) (hs : ¬(first = true ∧ 1000000 < m)) :
    judge cfg scale first m = .stop (derive m.toNat scale) .ok :=
  (if_neg hs).trans (if_pos hm)

theorem judge_short {scale : Nat} {first : Bool} {m : Int} (hm : m < 10000) :
    judge cfg scale first m =
      if cfg.calMaxScale < 2 * scale then .stop cfg.calFallbackIters .exhausted else .again (2 * scale) := by
  have hsane : ¬(first = true ∧ calSanityUs < m) := by rw [calSanityUs]; omega
  have htarget : ¬calTargetUs ≤ m := by rw [calTargetUs]; omega
  rw [judge, if_neg hsane, if_neg htarget]

section Decide

variable {scale : Nat} {first : Bool} {m : Int} (hidle : s.host.handler = .idle)
  (happ : s.host.app = .calibrate (.decide m)) (hcal : s.host.cal = .measure scale first)

include hidle happ hcal

theorem appStep_decide_stop {n : Nat} {c : CalCondition} (hj : judge s.cfg scale first m = .stop n c) :
    runEvent .appStep s = .next (s.calibrated n c) := by
  rw [appStep_of_idle hidle]
  simp only [procStep, happ, calibrateStep, hcal, hj]

theorem appStep_decide_again {scale' : Nat} (hj : judge s.cfg scale first m = .again scale') :
    runEvent .appStep s =
      .next ((s.setHost { s.host with cal := .measure scale' false }).goto (.calibrate .disablePreemption)) := by
  rw [appStep_of_idle hidle]
  simp only [procStep, happ, calibrateStep, hcal, hj]

end Decide

/-! ## One measurement (R214, R216, R219) -/

/-- `s` in a measurement that stands at `pc`, PREEMPT_OFF being `off` and the clock's samples in hand `samples`. -/
def State.measuring (s : State) (off : Bool) (samples : List ClockSample) (pc : CalPc) : State := { s with
  env := { s.env with clock := samples }
  host := { s.host with preemptOff := off, app := .calibrate pc } }

section Measurement

variable (hidle : s.host.handler = .idle) (off : Bool) (samples : List ClockSample) (t0 t1 : ClockSample)

include hidle

theorem appStep_measuring (pc : CalPc) :
    runEvent .appStep (s.measuring off samples pc) = calibrateStep pc (s.measuring off samples pc) :=
  appStep_of_idle (s := s.measuring off samples pc) hidle

theorem appStep_disablePreemption :
    runEvent .appStep (s.measuring off samples .disablePreemption) = .next (s.measuring true samples .sampleBefore) :=
  appStep_measuring hidle _ _ _

theorem appStep_sampleBefore :
    runEvent .appStep (s.measuring off (t0 :: samples) .sampleBefore) = .next (s.measuring off samples (.loop t0)) :=
  appStep_measuring hidle _ _ _

theorem appStep_loop :
    runEvent .appStep (s.measuring off samples (.loop t0)) = .next (s.measuring off samples (.sampleAfter t0)) :=
  appStep_measuring hidle _ _ _

theorem appStep_sampleAfter :
    runEvent .appStep (s.measuring off (t1 :: samples) (.sampleAfter t0)) =
      .next (s.measuring off samples (.enablePreemption t0 t1)) :=
  appStep_measuring hidle _ _ _

theorem appStep_enablePreemption :
    runEvent .appStep (s.measuring off samples (.enablePreemption t0 t1)) =
      .next (s.measuring false samples (.decide (elapsedUs t0 t1))) :=
  appStep_measuring hidle _ _ _

end Measurement

/-! ## The deadline timer (R228) -/

/-- `waitDeadline(h, us, sigs)` has been called: its request is armed. -/
def State.waiting (s : State) (h us : Nat) (sigs : List Nat) : State :=
  (s.armTimer h us).goto (.waitDeadline h sigs)

/-- The deadline of that call has passed. -/
def State.waitExpired (s : State) (h us : Nat) (sigs : List Nat) : State :=
  (s.setHost { s.host with timer := { s.host.timer with
    request := some { handle := h, us := us, expired := true } } }).goto (.waitDeadline h sigs)

/-- The wait is over, and its request with it. -/
def State.waitOver (s : State) (bySignal : Bool) : State := s.disarmTimer.finish (.woken bySignal)

theorem HostState.raise_of_not_mem {h : HostState} {n : Nat} (hn : n ∉ h.signals) :
    h.raise n = { h with signals := h.signals ++ [n] } := by
  rw [HostState.raise, if_neg hn]

section Wait

variable {h us : Nat} {sigs : List Nat}

theorem signalled_iff {signals : List Nat} :
    (sigs.any fun n => decide (n ∈ signals)) = true ↔ ∃ n ∈ sigs, n ∈ signals := by
  simp only [List.any_eq_true, decide_eq_true_eq]

theorem signalled_eq_false {signals : List Nat} :
    (sigs.any fun n => decide (n ∈ signals)) = false ↔ ∀ n ∈ sigs, n ∉ signals := by
  simp only [List.any_eq_false, decide_eq_true_eq]

theorem waitDeadline_enters (hr : s.ready) (hopen : h ∈ s.host.timer.handles) :
    runEvent (.call .application (.waitDeadline h us sigs)) s = .next (s.waiting h us sigs) :=
  (call_ready hr _).trans (if_pos hopen)

theorem waitDeadline_refused (hr : s.ready) (hopen : h ∉ s.host.timer.handles) :
    runEvent (.call .application (.waitDeadline h us sigs)) s = .refused .timerNotOpen :=
  (call_ready hr _).trans (if_neg hopen)

theorem runEvent_deadline_waiting :
    runEvent .deadline (s.waiting h us sigs) = .next (s.waitExpired h us sigs) := rfl

theorem passed_waiting : (s.waiting h us sigs).host.timer.passed h = false := by
  simp [State.waiting, TimerState.passed]

theorem passed_waitExpired : (s.waitExpired h us sigs).host.timer.passed h = true := by
  simp [State.waitExpired, TimerState.passed]

/-- A signal set from outside while the call waits, not set before. -/
theorem runEvent_signal_waiting {n : Nat} (hn : n ∉ s.host.signals) :
    runEvent (.signal n) (s.waiting h us sigs) =
      .next ((s.setHost { s.host with signals := s.host.signals ++ [n] }).waiting h us sigs) := by
  rw [runEvent, raiseSignal, HostState.raise_of_not_mem (h := (s.waiting h us sigs).host) hn]
  rfl

theorem appStep_waiting (hidle : s.host.handler = .idle) :
    runEvent .appStep (s.waiting h us sigs) = waitDeadlineStep h sigs (s.waiting h us sigs) :=
  appStep_of_idle (s := s.waiting h us sigs) hidle

theorem appStep_waitExpired (hidle : s.host.handler = .idle) :
    runEvent .appStep (s.waitExpired h us sigs) = waitDeadlineStep h sigs (s.waitExpired h us sigs) :=
  appStep_of_idle (s := s.waitExpired h us sigs) hidle

/-- Neither the deadline nor a signal: the wait is blocked. -/
theorem waitDeadlineStep_blocked (hs : ∀ n ∈ sigs, n ∉ s.host.signals) (ht : s.host.timer.passed h = false) :
    waitDeadlineStep h sigs s = .refused (.notEnabled .appStep) := by
  simp only [waitDeadlineStep, signalled_eq_false.mpr hs, ht, Bool.false_and, Bool.false_eq_true, if_false]

theorem waitDeadlineStep_deadline (hs : ∀ n ∈ sigs, n ∉ s.host.signals) (ht : s.host.timer.passed h = true) :
    waitDeadlineStep h sigs s = .next (s.waitOver false) := by
  simp only [waitDeadlineStep, signalled_eq_false.mpr hs, ht, Bool.false_and, Bool.false_eq_true, if_false, if_true]
  rfl

theorem waitDeadlineStep_signal (hs : ∃ n ∈ sigs, n ∈ s.host.signals) (ht : s.host.timer.passed h = false) :
    waitDeadlineStep h sigs s = .next (s.waitOver true) := by
  simp only [waitDeadlineStep, signalled_iff.mpr hs, ht, Bool.and_false, Bool.false_eq_true, if_false, if_true]
  rfl

/-- Both have happened: a free choice is reported (log 12). -/
theorem waitDeadlineStep_both (hs : ∃ n ∈ sigs, n ∈ s.host.signals) (ht : s.host.timer.passed h = true) :
    waitDeadlineStep h sigs s = .next (s.drawn.waitOver (Config.anyChoice s.draws)) := by
  simp only [waitDeadlineStep, signalled_iff.mpr hs, ht, Bool.and_true, if_true]
  rfl

/-! What the waiting call's step comes to, before its deadline has passed and after it. -/

theorem appStep_waiting_blocked (hidle : s.host.handler = .idle) (hs : ∀ n ∈ sigs, n ∉ s.host.signals) :
    runEvent .appStep (s.waiting h us sigs) = .refused (.notEnabled .appStep) :=
  (appStep_waiting hidle).trans (waitDeadlineStep_blocked (s := s.waiting h us sigs) hs passed_waiting)

theorem appStep_waiting_signal (hidle : s.host.handler = .idle) (hs : ∃ n ∈ sigs, n ∈ s.host.signals) :
    runEvent .appStep (s.waiting h us sigs) = .next (s.waitOver true) :=
  (appStep_waiting hidle).trans (waitDeadlineStep_signal (s := s.waiting h us sigs) hs passed_waiting)

theorem appStep_waitExpired_deadline (hidle : s.host.handler = .idle) (hs : ∀ n ∈ sigs, n ∉ s.host.signals) :
    runEvent .appStep (s.waitExpired h us sigs) = .next (s.waitOver false) :=
  (appStep_waitExpired hidle).trans (waitDeadlineStep_deadline (s := s.waitExpired h us sigs) hs passed_waitExpired)

theorem appStep_waitExpired_both (hidle : s.host.handler = .idle) (hs : ∃ n ∈ sigs, n ∈ s.host.signals) :
    runEvent .appStep (s.waitExpired h us sigs) = .next (s.drawn.waitOver (Config.anyChoice s.draws)) :=
  (appStep_waitExpired hidle).trans (waitDeadlineStep_both (s := s.waitExpired h us sigs) hs passed_waitExpired)

end Wait

end Machine

open Machine

/-- Settles O49: `Derive` is one more than `ceilDiv`, the least count that reaches 400 ns. -/
theorem deriveNeverUndershoots : Obligations.DeriveNeverUndershoots := by
  intro m scale hm
  have hleast := ceilDiv_le_iff (a := 400 * scale) (b := 1000 * m) (by omega)
  have hderive : derive m scale = ceilDiv (400 * scale) (1000 * m) + 1 := rfl
  rw [hderive]
  generalize ceilDiv (400 * scale) (1000 * m) = n at hleast
  have hreach : 400 * scale ≤ n * (1000 * m) := (hleast n).mp le_rfl
  refine ⟨?_, ⟨n, rfl, hreach, fun k hk => (hleast k).mpr hk⟩, fun hscale => ?_⟩
  · rw [Nat.add_one_mul n]; omega
  · by_contra hn
    have hzero := (hleast 0).mp (by omega)
    omega

/-- Settles O50: the call on its three sides, and the verdict of each measurement. -/
theorem calibrationFollowsItsTable : Obligations.CalibrationFollowsItsTable := by
  refine ⟨fun s hr hcal htimer => ?_, fun s hr hcal htimer => ?_, fun s scale first m hidle happ hcal =>
    ⟨fun hfirst hm => ?_, fun hm hs => ?_, fun hm hmax => ?_, fun hm hmax => ?_⟩, fun s hr hcal => ?_⟩
  · exact (call_ready hr _).trans ((if_pos hcal).trans (if_neg (Bool.eq_false_iff.mp htimer)))
  · exact (call_ready hr _).trans ((if_pos hcal).trans (if_pos htimer))
  · subst hfirst
    exact appStep_decide_stop hidle happ hcal (judge_unreliable hm)
  · exact appStep_decide_stop hidle happ hcal (judge_enough hm hs)
  · exact appStep_decide_again hidle happ hcal ((judge_short hm).trans (if_neg (not_lt.mpr hmax)))
  · exact appStep_decide_stop hidle happ hcal ((judge_short hm).trans (if_pos hmax))
  · exact (call_ready hr _).trans (if_neg hcal)

/-- Settles O51: the five steps, each run from where the one before has left the measurement. -/
theorem measurementSamplesWithPreemptionOff : Obligations.MeasurementSamplesWithPreemptionOff := by
  intro s t0 t1 rest hidle happ hclock
  have hstart : s = s.measuring s.host.preemptOff (t0 :: t1 :: rest) .disablePreemption := by
    rw [State.measuring, ← hclock, ← happ]
  have hdisable : runEvent .appStep s = .next (s.measuring true (t0 :: t1 :: rest) .sampleBefore) :=
    (congrArg (runEvent .appStep) hstart).trans (appStep_disablePreemption hidle _ _)
  have hbefore := appStep_sampleBefore hidle true (t1 :: rest) t0
  have hloop := appStep_loop hidle true (t1 :: rest) t0
  have hafter := appStep_sampleAfter hidle true rest t0 t1
  have henable := appStep_enablePreemption hidle true rest t0 t1
  refine ⟨?_, ?_, ?_, ?_, ?_⟩
  · rw [runEvents_singleton, hdisable, State.measuring, ← hclock]
  · rw [runEvents_of_next hdisable, runEvents_singleton, hbefore]; rfl
  · rw [runEvents_of_next hdisable, runEvents_of_next hbefore, runEvents_singleton, hloop]; rfl
  · rw [runEvents_of_next hdisable, runEvents_of_next hbefore, runEvents_of_next hloop,
      runEvents_singleton, hafter]
    rfl
  · rw [runEvents_of_next hdisable, runEvents_of_next hbefore, runEvents_of_next hloop,
      runEvents_of_next hafter, runEvents_singleton, henable]
    rfl

/-- Settles O52: the two calls that end with their first step, and a wait run to each of its ends. -/
theorem deadlineTimerFollowsItsContract : Obligations.DeadlineTimerFollowsItsContract := by
  refine ⟨fun s hr ht => runEvents_call_step hr rfl (if_pos ht),
    fun s hr ht => runEvents_call_step hr rfl (if_neg (Bool.eq_false_iff.mp ht)),
    fun s h hr => runEvents_call_step hr rfl rfl, fun s h us sigs hr hclosed => waitDeadline_refused hr hclosed,
    fun s h us sigs hr hopen => ?_⟩
  intro wait ended
  have hcall : runEvent wait s = .next (s.waiting h us sigs) := waitDeadline_enters hr hopen
  simp only [runEvents_of_next hcall, runEvents_of_next runEvent_deadline_waiting, runEvents_singleton]
  refine ⟨fun hs => ⟨appStep_waiting_blocked hr.1 hs, appStep_waitExpired_deadline hr.1 hs, fun n hn => ?_⟩,
    fun hs => ⟨appStep_waiting_signal hr.1 hs, _, appStep_waitExpired_both hr.1 hs⟩⟩
  have hset : n ∈ s.host.signals ++ [n] := List.mem_append_right _ (List.mem_singleton_self n)
  rw [runEvents_of_next (runEvent_signal_waiting (hs n hn)), runEvents_singleton]
  exact appStep_waiting_signal (s := s.setHost { s.host with signals := s.host.signals ++ [n] }) hr.1 ⟨n, hn, hset⟩

end Sys2Proof
end

section
/-! The dispatcher (O38): its guard as R247 words it, and the two dispatches that ask it. -/

namespace Sys2Proof

namespace Machine

variable {s : State}

/-- R247's guard, IRQ aside. -/
theorem dispatchable_iff {h : HostState} :
    h.dispatchable = true ↔ h.registered = true ∧ h.handler = .idle ∧ h.preemptOff = false := by
  simp only [HostState.dispatchable, Bool.and_eq_true, Bool.not_eq_true', inHandler_eq_false, and_assoc]

theorem irqDispatch_guard :
    (s.dev.irq && s.host.dispatchable) = true ↔
      s.dev.irq = true ∧ s.host.registered = true ∧ s.host.handler = .idle ∧ s.host.preemptOff = false := by
  rw [Bool.and_eq_true, dispatchable_iff]

end Machine

open Machine

/-- Settles O38: both dispatches are a test of the guard before `takeInterrupt`, which writes the handler only. -/
theorem dispatchStartsTheHandler : Obligations.DispatchStartsTheHandler := by
  intro s
  refine ⟨fun henabled => ?_, fun hdisabled => ?_, fun hfree => ?_⟩
  · exact if_pos (irqDispatch_guard.mpr henabled)
  · exact if_neg (mt irqDispatch_guard.mp hdisabled)
  · exact if_pos (dispatchable_iff.mpr hfree)

end Sys2Proof
end
